-- ==== Sys2Proof/Word.lean ====
section
/-! DEFINITION. The word types of the part's port and records (spec/00_scope.md, Conventions). -/

namespace Sys2Proof

/-- A byte of DRAM. -/
abbrev Byte := BitVec 8

/-- One transfer of the memory port: a 16-bit word (R158). -/
abbrev Word := BitVec 16

/-- A 32-bit field: two consecutive words, low word first (R158). -/
abbrev DWord := BitVec 32

end Sys2Proof
end

