-- ==== Sys2Proof/Syntax.lean ====
section
/-! DEFINITION. The commands of the block: one constructor per row of spec/opcode_table.json.

The table gives its rows no operand bits. An operand below is what the outside world decides when the row happens: the
word and address of a port access, the slot whose deadline expires, the link an echo comes back on, the level a line
takes, or which of two events that "may come in either order" comes first. -/

namespace Sys2Proof

/-- Which byte of a sensor read the sensor left unacknowledged (R47, steps 2, 3 and 5). -/
inductive UnackedByte where
  | addressWrite
  | registerIndex
  | addressRead
  deriving DecidableEq, Repr

/-- How the I2C transaction of a sensor read came to its end (R47, R48). -/
inductive SensorResult where
  /-- step 8 was reached with these two data bytes, high byte first -/
  | data (raw : Word)
  /-- one of the three bytes was not acknowledged, and the part issued a stop condition there -/
  | noAck (which : UnackedByte)
  deriving DecidableEq, Repr

/-- Where the admission unit's own pass of a frame boundary falls (R103, R114: either order may come): before the links'
and the lanes' work, between the two, or after both. -/
inductive PassPlace where
  | first
  | between
  /-- the pass is triggered and runs as ADMISSION_PASS -/
  | later
  deriving DecidableEq, Repr

/-- In which order the parts of a frame boundary come that no rule orders. -/
structure BoundaryOrder where
  /-- the links judge the ending frame, and have a fault of theirs taken, before (`true`) or after (`false`) the frame engine's
  boundary work on the lanes (R126: either may come first) -/
  linksFirst : Bool
  /-- where the admission unit's own pass falls (R103) -/
  pass : PassPlace
  deriving DecidableEq, Repr

/-- One command: a host access, an expiry, an edge of a line, or a step of one of the part's own units. -/
inductive Instr where
  /-- POWER_ON (R168). `contents`: what the DRAM powers up with; the manual leaves it undefined. -/
  | powerOn (contents : List Host.Cell)
  /-- RESET_PIN (R168, R158): the pin is asserted (`true`) or released (`false`). -/
  | resetPin (asserted : Bool)
  /-- START (R163, R165). -/
  | start
  /-- SETUP_VALIDATION (R166, R167). -/
  | setupValidation
  /-- PLANE_INITIALISATION (R9). -/
  | planeInitialisation
  /-- LEDGER_INITIALISATION (R22). -/
  | ledgerInitialisation
  /-- RESYNCHRONISATION (R73, R165 steps 3 to 6). -/
  | resynchronisation
  /-- ATTEND (R163). -/
  | attend
  /-- HALT (R164). -/
  | halt
  /-- RESUME (R164). -/
  | resume
  /-- RAILS_ON (R152). -/
  | railsOn
  /-- RELINK (R139). -/
  | relink
  /-- RELOAD (R41). -/
  | reload
  /-- SOFT_RESET (R168). -/
  | softReset
  /-- UNKNOWN_COMMAND (R163): a COMMAND / STATE write of a value that names no command. -/
  | unknownCommand (value : Word)
  /-- NOTICE_CAUSE_WRITE (R173, R160). -/
  | noticeCauseWrite (value : Word)
  /-- NOTICE_MASK_WRITE (R174). -/
  | noticeMaskWrite (value : Word)
  /-- NOTICE_ACK_WRITE (R174). -/
  | noticeAckWrite (value : Word)
  /-- REGISTER_WRITE_DISCARDED (R161, R158): a write at register address 0, 1, 6 or 7. -/
  | registerWriteDiscarded (address : BitVec 3) (value : Word)
  /-- HOST_MEM_READ (R158): a MEM read at a word address. -/
  | hostMemRead (address : BitVec 24)
  /-- HOST_MEM_WRITE (R159): a MEM write at a word address. -/
  | hostMemWrite (address : BitVec 24) (value : Word)
  /-- SENSOR_READ (R46): the poll timer expires. -/
  | sensorRead
  /-- SENSOR_READ_COMPLETE (R48). -/
  | sensorReadComplete (result : SensorResult)
  /-- TRANSACTION_TIMEOUT (R47): 25 ms have passed; `reached` steps of the transaction (1 to 7) have been done. -/
  | transactionTimeout (reached : Nat)
  /-- STALE_TIMER_EXPIRY (R50). -/
  | staleTimerExpiry
  /-- HALF_LIFE_EXPIRY (R56). -/
  | halfLifeExpiry
  /-- LOAD_SUCCESS (R39). -/
  | loadSuccess
  /-- LOAD_FAILURE (R40). -/
  | loadFailure
  /-- SCAN (R62). -/
  | scan
  /-- ADMISSION_PASS (R77). -/
  | admissionPass
  /-- FETCH_END (R92). -/
  | fetchEnd
  /-- DEADLINE_EXPIRY (R106) of the request taken from `slot`. -/
  | deadlineExpiry (slot : Fin 64)
  /-- HALT_FLUSH (R108). -/
  | haltFlush
  /-- FRAME_BOUNDARY (R114). `order`: what comes first of the parts of it that no rule orders. -/
  | frameBoundary (order : BoundaryOrder)
  /-- RETURN_TO_FREE (R112). -/
  | returnToFree
  /-- FINISH (R68). -/
  | finish
  /-- BOARD_WRITE (R67). -/
  | boardWrite
  /-- ECHO_WORD (R135) on the link of `segment`. `whileSending`: it arrives before the link has sent the frame's last
  byte. -/
  | echoWord (segment : Fin 4) (value : Word) (whileSending : Bool)
  /-- RISE_STEP (R146). -/
  | riseStep
  /-- POWER_GOOD_ASSERTED (R148, R149). -/
  | powerGoodAsserted
  /-- POWER_GOOD_RELEASED (R149). -/
  | powerGoodReleased
  /-- RISE_TIMEOUT (R148). -/
  | riseTimeout
  /-- BLANKING_EXPIRY (R149). -/
  | blankingExpiry
  /-- SUPPLY_ALERT (R150): the alert line is asserted (`true`) or released again (`false`). -/
  | supplyAlert (asserted : Bool)
  /-- IDLE_HOLD_EXPIRY (R154). -/
  | idleHoldExpiry
  /-- FALL_STEP (R153). -/
  | fallStep
  /-- WAKE_INPUT_LOW (R156). -/
  | wakeInputLow
  /-- WAKE_INPUT_HIGH (R156). -/
  | wakeInputHigh
  /-- WAKE_EVENT (R156). -/
  | wakeEvent
  deriving DecidableEq, Repr

end Sys2Proof
end

