-- ==== Sys2Proof/Decode.lean ====
section
/-! DEFINITION. The command a word of the opcode table spells, and the command a write to COMMAND / STATE selects. -/

namespace Sys2Proof

/-- spec/opcode_table.json gives no row any bits (every row's "fields" is empty, and none has "fixed" bits): a row is an
access or an event, not a word. So no word spells a command, whatever its width. -/
def decodeTableWord (_nbits _w : Nat) : Option Instr := none

/-- A host write to COMMAND / STATE is a command, and the whole word written selects which (R163; 10.7, Registers). -/
def commandOf (value : Word) : Instr :=
  match value.toNat with
  | 0x0001 => .start
  | 0x0002 => .attend
  | 0x0003 => .halt
  | 0x0004 => .resume
  | 0x0005 => .railsOn
  | 0x0006 => .relink
  | 0x0007 => .reload
  | 0x0008 => .softReset
  | _ => .unknownCommand value

end Sys2Proof
end

