-- ==== Sys2Proof/Config.lean ====
section
/-! DEFINITION. What the manual fixes once for every Edafin 2416: sizes and identification words; and the one free value, of
which nothing can be proved: where a reset falls. -/

namespace Sys2Proof.Config

/-- Where a reset falls that the outside world brings (R168: it ends each operation wherever it stands). R13 and R168 have a
reset end every operation in progress wherever it stands; that one reset finds ONE of them inside a step, and each of the
others then between two of its own steps, so that, say, the entry of a close and the entry of an examination are never both
half written, is a DESIGN CHOICE (notes/assumptions/3.md). Of an operation that goes in one step, `words` are the word
addresses that hold their new value already; the others hold their old one. -/
inductive ResetPoint where
  /-- between two steps -/
  | between
  /-- inside PLANE_INITIALISATION (R9, R165) -/
  | planePass (words : List Nat)
  /-- inside LEDGER_INITIALISATION (R22, R165) -/
  | ledgerPass (words : List Nat)
  /-- inside RESYNCHRONISATION (R73, R165) -/
  | boardPass (words : List Nat)
  /-- inside a frame boundary that goes in this order, after so many of its pieces (R10, R116, R123, R126) -/
  | boundary (order : BoundaryOrder) (pieces : Nat) (words : List Nat)
  /-- inside the fault steps of a rail fault (R10, R123) -/
  | railFault (words : List Nat)
  /-- inside the fault steps of a segment fault that an echo brings (R10, R123) -/
  | segmentFault (segment : Fin 4) (words : List Nat)
  /-- inside the admission unit's next step: the settle of a tile, or a claim with the first work of its fetch (R82, R90, R94) -/
  | admission (words : List Nat)
  /-- inside the fetch's work on one pixel (R91, R94) -/
  | pixel (words : List Nat)
  /-- inside the close's work on one tile (R113, R120) -/
  | close (words : List Nat)
  /-- inside the WAITING, RUNNING or header write that the board writer performs, after so many of its words (R67) -/
  | boardWrite (count : Nat)
  deriving DecidableEq, Repr, Inhabited

/-- Where the part's resets fall, by their count: a free value (notes/assumptions/3.md). The manual leaves a reset's moment
inside an operation to the outside world, and what it finds done there with it (R9, R10, R22, R68, R94, R168). -/
opaque resetInside : Nat → ResetPoint

/-- The attached SDRAM: 32 MiB (R158, R166). -/
def dramBytes : Nat := 33554432

/-- PART_ID reads 0x2416 (R161). -/
def partId : Word := 0x2416#16

/-- REVISION reads 0x0001 (R161). -/
def revision : Word := 0x0001#16

/-- Every region starts on a 4 KiB boundary (R166). -/
def regionAlign : Nat := 4096

/-- The posting board: 256-byte header and 64 slots of 64 bytes (R57). -/
def boardBytes : Nat := 4352

/-- The header's length (R57). -/
def headerBytes : Nat := 256

/-- One slot: a host half and a part half of 32 bytes each (R57). -/
def slotBytes : Nat := 64

/-- The waveform library (R26). -/
def libraryBytes : Nat := 208960

/-- The library's header (R26). -/
def libraryHeaderBytes : Nat := 64

/-- One band block (R26). -/
def bandBytes : Nat := 17408

/-- One entry (R26, R27). -/
def entryBytes : Nat := 17

/-- Entries of one mode table (R26). -/
def tableEntries : Nat := 256

/-- The longest entry, in frames (R27). -/
def maxFrames : Nat := 64

/-- The clamp of a tile's residue (R11, R19). -/
def residueLimit : Int := 32767

end Sys2Proof.Config
end

