-- ==== Sys2Proof/Machine/State.lean ====
section
/-! DEFINITION. Everything the spec gives the part, as plain data, block by block (spec/00_scope.md, "Block overview"),
and the part right after reset. A field that is the model's own, and no state of the spec's, says so. -/

namespace Sys2Proof.Machine

/-- Why a step stops with a fault. The manual describes no event that stops the part (each error becomes an outcome, a
notice cause or a state), so there is no reason and no step faults. -/
inductive Fault where
  deriving DecidableEq, Repr

/-- Why a step is refused. -/
inductive Refusal where
  /-- Raised by `exec` for a row of the opcode table that the model gives no meaning. Safe: nothing can be proved of it.
  No arm raises it any more. -/
  | notModelled (mnemonic : String)
  deriving DecidableEq, Repr

/-! ## The attached DRAM -/

/-- The DRAM's listed bytes: addresses strictly rising, no byte listed that an unlisted address reads as. -/
abbrev Memory := List Host.Cell

/-! ## Lines from outside -/

/-- The levels on the part's input lines. They belong to the outside world; no reset moves them. -/
structure Pins where
  /-- the reset pin is asserted (R158, R168) -/
  reset : Bool
  /-- the supply asserts power-good (R148, R149) -/
  powerGood : Bool
  /-- the supply asserts its alert line (R150) -/
  alert : Bool
  /-- the wake input is low (R156) -/
  wakeLow : Bool
  deriving DecidableEq, Repr

/-! ## Memory port and part state -/

/-- R162. -/
inductive PartState where
  | unconfigured
  | configuring
  | ready
  | halting
  | halted
  deriving DecidableEq, Repr

/-- The last command result (R163; 10.7, Registers). -/
inductive CommandResult where
  | none
  | accepted
  | refusedState
  | refusedUnknown
  | busy
  deriving DecidableEq, Repr

/-- The last setup error (R166; 10.7, Registers). -/
inductive SetupError where
  | none
  | badGeometry
  | badSegments
  | badTiming
  | badRegion
  | badBands
  | badRange
  deriving DecidableEq, Repr

/-- The memory port and the part-state logic. -/
structure Port where
  partState : PartState
  result : CommandResult
  setupError : SetupError
  /-- the blocked-write capture (R160): `none` is armed, with address 0; `some a` holds byte address `a` -/
  capture : Option Nat
  /-- the MODEL's own: the word the port drove at the last MEM read it served (R158) -/
  readData : Word
  deriving DecidableEq, Repr

/-- The notice logic (R173, R174). -/
structure Notice where
  startDone : Bool
  railFault : Bool
  segmentFault : Bool
  libraryError : Bool
  temperature : Bool
  blockedWrite : Bool
  halted : Bool
  /-- NOTICE_MASK, by cause bit -/
  mask : Byte
  /-- NOTICE_ACK -/
  ack : Word
  /-- the low 16 bits of the completion count as last written -/
  kept : Word
  deriving DecidableEq, Repr

/-! ## Setup -/

/-- The setup record's on-chip copy (10.7, Setup record), once validated. -/
structure Setup where
  width : Nat
  height : Nat
  segments : Nat
  planeInit : Nat
  framePeriod : Nat
  boardBase : Nat
  planeBase : Nat
  ledgerBase : Nat
  scratchBase : Nat
  libraryBase : Nat
  imageBase : Nat
  imageSize : Nat
  ghostThreshold : Byte
  partialWeight : Nat
  halfLife : Nat
  sensorAddress : Nat
  sensorRegister : Byte
  sensorInterval : Nat
  hysteresis : Nat
  staleLimit : Nat
  stepDelays : List Nat
  riseTimeout : Nat
  blankingTime : Nat
  wakeQualify : Nat
  idleHold : Nat
  window : Nat
  errorLimit : Byte
  matchCount : Nat
  attempts : Nat
  pattern : List Byte
  deriving DecidableEq, Repr

/-- Where START stands (R165). -/
inductive StartStage where
  /-- no START is in progress -/
  | idle
  /-- step 1: the words of the setup record and of the band bounds read so far, in reading order -/
  | reading (words : List Word)
  /-- step 1 has succeeded: the plane pass is due -/
  | planeDue
  /-- the plane pass is done: the ledger pass is due -/
  | ledgerDue
  /-- step 2 is done: the board's resynchronisation is due -/
  | boardDue
  deriving DecidableEq, Repr

/-! ## Waveforms and banks -/

/-- R23. -/
inductive Mode where
  | clean
  | gray
  | quick
  | ink
  deriving DecidableEq, Repr

/-- R24. -/
inductive DriveCode where
  | zero
  | raise
  | lower
  deriving DecidableEq, Repr

/-- One decoded entry: its codes of frames 0..ℓ−1, so that ℓ is the list's length (R27, R28). -/
abbrev Waveform := List DriveCode

/-- The two banks (R33). -/
inductive BankId where
  | a
  | b
  deriving DecidableEq, Repr

/-- R33. -/
inductive BankState where
  | empty
  | loading
  | ready
  | failed
  deriving DecidableEq, Repr

/-- One bank (R33, R35). -/
structure Bank where
  state : BankState
  band : Option Nat
  /-- the decoded tables: 1,024 entries in reading order, empty where the bank holds none -/
  entries : Array Waveform
  /-- the reference count -/
  refs : Nat
  deriving DecidableEq, Repr

/-- R32. -/
inductive LibraryCode where
  | none
  | badLength
  | badCode
  | unbalanced
  | noClean
  deriving DecidableEq, Repr

/-- The library error record (R32). -/
structure LibraryError where
  code : LibraryCode
  band : Nat
  bank : BankId
  mode : Nat
  fromLevel : Nat
  toLevel : Nat
  frame : Nat
  deriving DecidableEq, Repr

/-- Where a load request stands (R37, R38). -/
inductive LoadPhase where
  | deferred
  /-- in progress: the words of the band block read so far, in reading order -/
  | reading (words : List Word)
  deriving DecidableEq, Repr

/-- The bank unit's one load request (R37). -/
structure LoadRequest where
  target : BankId
  band : Nat
  phase : LoadPhase
  deriving DecidableEq, Repr

/-- The bank unit. -/
structure BankUnit where
  a : Bank
  b : Bank
  active : Option BankId
  request : Option LoadRequest
  libraryError : LibraryError
  /-- the band bounds B0..B12 in whole degrees, empty where the unit holds none (R29) -/
  bounds : List Int
  deriving DecidableEq, Repr

/-! ## Temperature monitor -/

/-- R45. -/
inductive ReadResult where
  | good
  | failed
  deriving DecidableEq, Repr

/-- A timer that can also stand expired (R45, R144). -/
inductive Timer where
  | stopped
  | running
  | expired
  deriving DecidableEq, Repr

/-- R49. -/
inductive TempStatus where
  | none
  | valid
  | held
  | invalid
  | override
  deriving DecidableEq, Repr

/-- What the part does and sees on the I2C bus (R47). -/
inductive I2cEvent where
  | start
  | sent (byte : Byte) (acknowledged : Bool)
  | repeatedStart
  | received (acknowledged : Bool)
  | stop
  deriving DecidableEq, Repr

/-- The temperature monitor (R45). Temperatures are in quarter-degrees. -/
structure Monitor where
  lastGood : Option Int
  lastResult : Option ReadResult
  stale : Timer
  overrideFlag : Bool
  overrideValue : Int
  status : TempStatus
  inUse : Option Int
  band : Option Nat
  pollTimer : Bool
  halfLifeTimer : Bool
  /-- the decay tick counter D (R12) -/
  ticks : DWord
  /-- a sensor read is in progress (R45, R46) -/
  reading : Bool
  /-- the override value word that the start of the sensor read in progress has read, while the flag word is still to be read
  (R46, R51) -/
  held : Option Word
  /-- the MODEL's own record of the bus: the events of the transaction in progress or last ended (R47) -/
  bus : List I2cEvent
  deriving DecidableEq, Repr

/-! ## Posting board -/

/-- R59. -/
inductive SlotStatus where
  | idle
  | waiting
  | running
  | finished
  deriving DecidableEq, Repr

/-- A request's fields as the take copied them from a slot's host half (R58, R63). -/
structure Intake where
  postCount : Byte
  mark : Byte
  mode : Nat
  ghostPolicy : Nat
  conflictPolicy : Nat
  waitLimit : Nat
  x : Nat
  y : Nat
  w : Nat
  h : Nat
  tag : Word
  image : Nat
  pitch : Nat
  deriving DecidableEq, Repr

/-- What the board scanner and the board writer hold on chip for one slot: seen count and status as the board writer
holds them (R62, R70), and the intake copy (R63). -/
structure Slot where
  seen : Byte
  status : SlotStatus
  intake : Option Intake
  deriving DecidableEq, Repr

/-- R144. -/
inductive RailCause where
  | none
  | riseTimeout
  | railDrop
  | supplyAlert
  deriving DecidableEq, Repr

/-- R64. -/
inductive Malformed where
  | badMode
  | badPolicy
  | zeroSize
  | badPitch
  | badImage
  deriving DecidableEq, Repr

/-- How a posting ended, with the detail that qualifies the code (R60). -/
inductive SlotOutcome where
  | done
  | withdrawnAtTake
  | withdrawnWhileWaiting
  | malformed (why : Malformed)
  | nothingToDo
  | conflict
  | railsDown (cause : RailCause)
  | segmentFault (segment : Fin 4)
  | noTemperature
  | modeAbsent
  | timedOut
  | halted
  | brokenByRails
  | brokenBySegment (segment : Fin 4)
  deriving DecidableEq, Repr

/-- The outcome flags (R59). -/
structure Flags where
  clipped : Bool
  rounded : Bool
  promoted : Bool
  forcedClean : Bool
  ghostRisk : Bool
  withdrawLate : Bool
  coldClamp : Bool
  hotClamp : Bool
  deriving DecidableEq, Repr

/-- All outcome flags clear. -/
def Flags.none : Flags := ⟨false, false, false, false, false, false, false, false⟩

/-- Everything a finish writes into a slot's part half (R59, R68). -/
structure Finish where
  slot : Fin 64
  seen : Byte
  outcome : SlotOutcome
  flags : Flags
  mode : Option Mode
  /-- the lane that carried the request; `some` exactly for a lane's close (R121) -/
  lane : Option (Fin 32)
  startFrame : DWord
  endFrame : DWord
  driven : Nat
  leftUnknown : Nat
  score : Nat
  tag : Word
  deriving DecidableEq, Repr

/-- R132. -/
inductive LinkState where
  | down
  | up
  | faulted
  | training
  deriving DecidableEq, Repr

/-- R144. -/
inductive RailState where
  | off
  | rising
  | on
  | falling
  | fault
  deriving DecidableEq, Repr

/-- One header field (or the fields the manual says are written together) with the values handed for it (R71). -/
inductive HeaderWrite where
  | frameNumber (n : DWord)
  | partState (p : PartState)
  | temperature (t : Int)
  | tempStatus (st : TempStatus)
  | band (b : Option Nat)
  | bank (id : BankId) (state : BankState) (band : Option Nat)
  | activeBank (id : Option BankId)
  | libraryError (e : LibraryError)
  | railState (r : RailState)
  | railCause (c : RailCause)
  | segment (s : Fin 4) (state : LinkState) (window : Nat) (total : DWord)
  | pendingCount (n : Nat)
  | lanesInUse (n : Nat)
  | blockedAddress (a : Nat)
  | tally (counters : Vector DWord 4) (stamp : DWord)
  deriving DecidableEq, Repr

/-- One request waiting at the board writer (R67). -/
inductive BoardRequest where
  | header (w : HeaderWrite)
  | waiting (slot : Fin 64) (seen : Byte)
  | running (slot : Fin 64) (seen : Byte) (mode : Mode) (lane : Fin 32)
  | finish (f : Finish)
  /-- the third write of a finish whose first two have been made (R68) -/
  | completion
  deriving DecidableEq, Repr

/-- A scan in progress (R62, R66): the cursor as it found it, how many slots it has visited, whether it has appended or
withdrawn a request, and, while it makes the copy of a take, the words read so far (R63). -/
structure Scan where
  first : Fin 64
  visited : Nat
  changed : Bool
  copy : Option (List Word)
  /-- HALT has been accepted: the scan ends with the slot it is visiting (R66), whose posting it copies or whose withdraw it has
  found and still has to hand on (R107), or, where it has not read the override words yet, with that read -/
  ending : Bool
  /-- both override words have been read (R66) -/
  opened : Bool
  /-- the override value word that the scan has read, while the flag word is still to be read (R51) -/
  held : Option Word
  deriving DecidableEq, Repr

/-- The board scanner and the board writer. -/
structure Board where
  /-- the scan cursor (R62) -/
  cursor : Fin 64
  /-- a trigger came during the scan in progress: a further scan follows it (R66) -/
  scanDue : Bool
  scan : Option Scan
  slots : Vector Slot 64
  /-- the requests waiting at the board writer, first in, first out (R67) -/
  queue : List BoardRequest
  /-- how many words the board writer has written of the finish, or of the completion count, at the front (R68) -/
  written : Nat
  /-- the completion count (R69) -/
  completion : DWord
  deriving DecidableEq, Repr

/-! ## Admission -/

/-- A rectangle of panel pixels: corner, width and height. -/
structure Rect where
  x : Nat
  y : Nat
  w : Nat
  h : Nat
  deriving DecidableEq, Repr

/-- One entry of the pending list with its deadline and its examination record (R78, R96, R105). -/
structure Waiting where
  slot : Fin 64
  /-- the wait limit in ms that runs from the append; `none` where the request has no limit -/
  deadline : Option Nat
  /-- the pass in progress has examined this entry (R77) -/
  examined : Bool
  clip : Option Rect
  flags : Flags
  mode : Option Mode
  score : Nat
  deriving DecidableEq, Repr

/-- The fetch under way: its lane; its position, in pixels of the clipped rectangle taken; and the image word it read last,
with its byte address (R75, R90). -/
structure Fetch where
  lane : Fin 32
  position : Nat
  held : Option (Nat × Word)
  deriving DecidableEq, Repr

/-- What admission keeps of its ledger reads: any tile with U > 0, any tile meeting the ghost condition, the largest score
(R82). -/
structure LedgerReading where
  anyUnknown : Bool
  anyGhost : Bool
  highest : Nat
  deriving DecidableEq, Repr

/-- Where an examination stands: the step it makes next (chapter 5), with what the later steps need of the earlier. -/
inductive ExamStep where
  /-- step 2 -/
  | gates
  /-- step 3: the tiles not read yet, in the order of R82, and what the ones read gave; `absent`: the modes that the active bank
  of step 2 lacks (R84) -/
  | ledger (absent : List Mode) (left : List (Nat × Nat)) (reading : LedgerReading)
  /-- step 4 -/
  | mode (absent : List Mode) (reading : LedgerReading)
  /-- steps 5 and 6, for this effective mode -/
  | place (mode : Mode)
  /-- steps 7 and 8, for the effective mode and the chosen lane (R86) -/
  | probe (mode : Mode) (lane : Fin 32)
  deriving DecidableEq, Repr

/-- The examination in progress: its request's slot, the clipped rectangle, and where it stands (R77). -/
structure Exam where
  slot : Fin 64
  rect : Rect
  step : ExamStep
  deriving DecidableEq, Repr

/-- The admission unit (R75). -/
structure Admission where
  list : List Waiting
  /-- the pass flag: a pass is in progress -/
  passActive : Bool
  /-- the further-pass flag: a trigger came during the pass in progress (R76) -/
  passDue : Bool
  /-- the examination in progress, once its first step is made -/
  exam : Option Exam
  fetch : Option Fetch
  /-- HALT has been accepted and the flush has not ended (R108, R164) -/
  flushDue : Bool
  deriving DecidableEq, Repr

/-! ## Lanes and frame engine -/

/-- R111. -/
inductive LaneState where
  | free
  | loading
  | armed
  | driving
  | closing
  deriving DecidableEq, Repr

/-- How a lane is to end (R110). -/
inductive Ending where
  | none
  | done
  | brokenByRails
  | brokenBySegment (segment : Fin 4)
  | railsDown (cause : RailCause)
  | segmentFault (segment : Fin 4)
  deriving DecidableEq, Repr

/-- One lane record (R110). -/
structure Lane where
  state : LaneState
  slot : Fin 64
  seen : Byte
  mode : Mode
  bank : BankId
  rect : Rect
  /-- the frame index f -/
  index : Nat
  /-- the length L -/
  length : Nat
  startFrame : Option DWord
  withdrawLate : Bool
  flags : Flags
  score : Nat
  claimed : Nat
  completed : Nat
  ending : Ending
  /-- the driven tiles that the close has not carried into the ledger yet: tile column, tile row, and the count q that a break
  keeps until its break-mark, 0 for DONE (R120, R124) -/
  toClose : List (Nat × Nat × Nat)
  deriving DecidableEq, Repr

/-- The frame engine (R114, R115). -/
structure FrameEngine where
  /-- the frame timer runs -/
  timer : Bool
  number : DWord
  /-- the rows of the frame in progress that the stream has handed to the links (R119) -/
  row : Nat
  /-- the codes of the next row that the stream has worked out, from the left (R119) -/
  codes : List DriveCode
  deriving DecidableEq, Repr

/-! ## Segment links -/

/-- What the frame in progress is for a link (R133, R140). -/
inductive FrameKind where
  /-- neither: nothing is sent, or the frame has been abandoned -/
  | none
  | checked
  | training
  deriving DecidableEq, Repr

/-- One segment link (R132). -/
structure Link where
  state : LinkState
  windowPosition : Nat
  windowCount : Nat
  lastWindow : Nat
  total : DWord
  consecutive : Nat
  attemptFrames : Nat
  failedAttempts : Nat
  /-- the expected echo, computed over the bytes of the frame as they are sent (R134) -/
  expected : Word
  frame : FrameKind
  /-- the frame in progress has been judged (R135) -/
  judged : Bool
  /-- the bytes of the frame in progress that the link has been given to send, in sending order (R133, R140) -/
  sent : List Byte
  deriving DecidableEq, Repr

/-! ## Rail supervisor -/

/-- R156. -/
inductive WakeState where
  | idle
  | measuring
  | spent
  deriving DecidableEq, Repr

/-- The rail supervisor (R144). -/
structure Rails where
  state : RailState
  /-- enables asserted: the first `step` of gate low, source negative, gate high, source positive, common electrode -/
  step : Nat
  stepTimer : Bool
  riseTimer : Bool
  blankingTimer : Bool
  idleTimer : Timer
  lanesBusy : Bool
  training : Bool
  demandHeld : Bool
  cause : RailCause
  wake : WakeState
  deriving DecidableEq, Repr

/-! ## Activity tally -/

/-- A tally configuration word's fields (10.7, Board header). -/
structure TallyConfig where
  enable : Bool
  invert : Bool
  edge : Bool
  freeze : Bool
  select : Nat
  threshold : Nat
  deriving DecidableEq, Repr

/-- One tally counter (R169). -/
structure TallyCounter where
  value : DWord
  config : TallyConfig
  previous : Bool
  deriving DecidableEq, Repr

/-- The activity tally (R169). -/
structure Tally where
  counters : Vector TallyCounter 4
  stamp : DWord
  deriving DecidableEq, Repr

/-! ## The whole part -/

/-- The part, its DRAM, the lines from outside, and the commands that wait to reach it. -/
structure State where
  /-- the MODEL's own: the commands waiting to reach the part, first in, first out -/
  pending : List Instr
  dram : Memory
  pins : Pins
  port : Port
  notice : Notice
  start : StartStage
  /-- the setup copy from the moment validation succeeds until the next reset (R165, R159) -/
  setup : Option Setup
  banks : BankUnit
  monitor : Monitor
  board : Board
  admission : Admission
  lanes : Vector Lane 32
  /-- the lanes in CLOSING whose close has not handed its outcome yet, in the order in which they entered CLOSING (R120) -/
  closing : List (Fin 32)
  frame : FrameEngine
  links : Vector Link 4
  rails : Rails
  tally : Tally
  /-- the MODEL's own: how many resets the part has had, by which the free value of the next one's moment is taken -/
  resets : Nat
  deriving DecidableEq, Repr

/-! ## Reset values -/

/-- After any reset: R161, R162, R160. -/
def Port.reset : Port :=
  { partState := .unconfigured, result := .none, setupError := .none, capture := none, readData := 0 }

/-- After any reset every cause and the mask are 0 (R168, R173, R174). -/
def Notice.reset : Notice :=
  { startDone := false, railFault := false, segmentFault := false, libraryError := false, temperature := false,
    blockedWrite := false, halted := false, mask := 0, ack := 0, kept := 0 }

/-- An EMPTY bank (R43). -/
def Bank.reset : Bank := { state := .empty, band := none, entries := #[], refs := 0 }

/-- The library error NONE (R43, R73). -/
def LibraryError.reset : LibraryError :=
  { code := .none, band := 0, bank := .a, mode := 0, fromLevel := 0, toLevel := 0, frame := 0 }

/-- After any reset (R43). -/
def BankUnit.reset : BankUnit :=
  { a := Bank.reset, b := Bank.reset, active := none, request := none, libraryError := LibraryError.reset, bounds := [] }

/-- After any reset (R45). -/
def Monitor.reset : Monitor :=
  { lastGood := none, lastResult := none, stale := .stopped, overrideFlag := false, overrideValue := 0, status := .none,
    inUse := none, band := none, pollTimer := false, halfLifeTimer := false, ticks := 0, reading := false, held := none,
    bus := [] }

/-- A slot on chip with no posting (R74). -/
def Slot.reset : Slot := { seen := 0, status := .idle, intake := none }

/-- After any reset (R62, R74). -/
def Board.reset : Board :=
  { cursor := 0, scanDue := false, scan := none, slots := Vector.replicate 64 Slot.reset, queue := [], written := 0,
    completion := 0 }

/-- After any reset (R75). -/
def Admission.reset : Admission :=
  { list := [], passActive := false, passDue := false, exam := none, fetch := none, flushDue := false }

/-- A FREE lane; its other fields have no meaning (R110, R113). -/
def Lane.reset : Lane :=
  { state := .free, slot := 0, seen := 0, mode := .clean, bank := .a, rect := ⟨0, 0, 0, 0⟩, index := 0, length := 0,
    startFrame := none, withdrawLate := false, flags := Flags.none, score := 0, claimed := 0, completed := 0,
    ending := .none, toClose := [] }

/-- After any reset (R114, R115). -/
def FrameEngine.reset : FrameEngine := { timer := false, number := 0, row := 0, codes := [] }

/-- A DOWN link (R132). -/
def Link.reset : Link :=
  { state := .down, windowPosition := 0, windowCount := 0, lastWindow := 0, total := 0, consecutive := 0,
    attemptFrames := 0, failedAttempts := 0, expected := 0, frame := .none, judged := false, sent := [] }

/-- After any reset (R144, R156). -/
def Rails.reset : Rails :=
  { state := .off, step := 0, stepTimer := false, riseTimer := false, blankingTimer := false, idleTimer := .stopped,
    lanesBusy := false, training := false, demandHeld := false, cause := .none, wake := .idle }

/-- A counter copy with enable clear (R169). -/
def TallyCounter.reset : TallyCounter :=
  { value := 0, config := ⟨false, false, false, false, 0, 0⟩, previous := false }

/-- After any reset (R169). -/
def Tally.reset : Tally := { counters := Vector.replicate 4 TallyCounter.reset, stamp := 0 }

/-- The part right after reset (R168), with no command waiting, no byte of DRAM listed and every input line at rest. -/
def State.reset : State :=
  { pending := [], dram := [], pins := ⟨false, false, false, false⟩, port := Port.reset, notice := Notice.reset,
    start := .idle, setup := none, banks := BankUnit.reset, monitor := Monitor.reset, board := Board.reset,
    admission := Admission.reset, lanes := Vector.replicate 32 Lane.reset, closing := [], frame := FrameEngine.reset,
    links := Vector.replicate 4 Link.reset, rails := Rails.reset, tally := Tally.reset, resets := 0 }

end Sys2Proof.Machine
end

