-- ==== Sys2Proof/Machine/Memory.lean ====
section
/-! DEFINITION. The attached DRAM as the part's blocks and the port read and write it (R158). Every write goes through
`Memory.write`, every read through `Memory.read` or `Memory.readBytes`. -/

namespace Sys2Proof.Machine

/-- What an unlisted address reads as. DESIGN CHOICE (notes/assumptions/1.md): the DRAM powers up with undefined
contents, which POWER_ON takes as its operand; a byte that neither it nor any write has listed reads 0. -/
def Memory.blank : Byte := 0#8

/-- The byte at an address. -/
def Memory.read (m : Memory) (address : Nat) : Byte :=
  match m.find? (fun c => c.1 == address) with
  | some c => c.2
  | none => Memory.blank

/-- The cells that `bytes` list from `address` up: none for a byte that an unlisted address reads as. -/
def Memory.cells (address : Nat) : List Byte → Memory
  | [] => []
  | b :: rest => if b = Memory.blank then cells (address + 1) rest else (address, b) :: cells (address + 1) rest

/-- `bytes` stored from `address` up. -/
def Memory.write (m : Memory) (address : Nat) (bytes : List Byte) : Memory :=
  m.filter (fun c => decide (c.1 < address)) ++
    (Memory.cells address bytes ++ m.filter (fun c => decide (address + bytes.length ≤ c.1)))

/-- `n` bytes from `address` up, out of cells none of which lies below `address`. -/
def Memory.expand : Nat → Nat → Memory → List Byte
  | 0, _, _ => []
  | n + 1, address, [] => Memory.blank :: expand n (address + 1) []
  | n + 1, address, (k, b) :: rest =>
    if k = address then b :: expand n (address + 1) rest else Memory.blank :: expand n (address + 1) ((k, b) :: rest)

/-- `n` bytes from `address` up, in one walk. -/
def Memory.readBytes (m : Memory) (address n : Nat) : List Byte :=
  Memory.expand n address (m.filter (fun c => decide (address ≤ c.1)))

/-- The canonical form: addresses strictly rise, and no cell holds the byte an unlisted address reads as. -/
def Memory.wf : Memory → Bool
  | [] => true
  | [c] => c.2 != Memory.blank
  | c :: d :: rest => decide (c.1 < d.1) && c.2 != Memory.blank && Memory.wf (d :: rest)

/-- The word at a byte address: the byte at the even address in bits 7..0 (R158). -/
def Memory.readWord (m : Memory) (address : Nat) : Word := m.read (address + 1) ++ m.read address

/-- The two bytes of a word in address order (R158). -/
def wordBytes (w : Word) : List Byte := [w.extractLsb' 0 8, w.extractLsb' 8 8]

/-- The four bytes of a 32-bit field in address order (R158). -/
def dwordBytes (w : DWord) : List Byte :=
  [w.extractLsb' 0 8, w.extractLsb' 8 8, w.extractLsb' 16 8, w.extractLsb' 24 8]

/-- A word stored whole (R158). -/
def Memory.writeWord (m : Memory) (address : Nat) (w : Word) : Memory := m.write address (wordBytes w)

/-- Bytes taken two by two as words (R158). -/
def wordsOf : List Byte → List Word
  | lo :: hi :: rest => (hi ++ lo) :: wordsOf rest
  | _ => []

/-- Words as bytes (R158). -/
def bytesOf : List Word → List Byte
  | [] => []
  | w :: rest => wordBytes w ++ bytesOf rest

/-- A DRAM image given cell by cell, brought into the canonical form and cut at the end of the DRAM. -/
def Memory.ofCells (cells : List Host.Cell) : Memory :=
  cells.foldl (fun m c => if c.1 < Config.dramBytes then m.write c.1 [c.2] else m) []

end Sys2Proof.Machine
end

