-- ==== Sys2Proof/Machine/Layout.lean ====
section
/-! DEFINITION. The formats of section 10.7 ("Layouts"): pixel words, ledger entries, scratch records, slot halves, the
board header, the setup record, library entries and the registers, each as its fields and back. -/

namespace Sys2Proof.Machine

/-! ## Byte lists as fields -/

/-- The byte at an offset of a record, as a number. -/
def byteAt (r : List Byte) (offset : Nat) : Nat := (r.getD offset 0#8).toNat

/-- The 16-bit field at an offset of a record. -/
def wordAt (r : List Byte) (offset : Nat) : Word := r.getD (offset + 1) 0#8 ++ r.getD offset 0#8

/-- The 32-bit field at an offset of a record, low word first. -/
def dwordAt (r : List Byte) (offset : Nat) : DWord := wordAt r (offset + 2) ++ wordAt r offset

/-! ## Codes -/

/-- Mode numbers (R23). -/
def Mode.code : Mode → Nat
  | .clean => 0
  | .gray => 1
  | .quick => 2
  | .ink => 3

/-- The mode a number names; validation has refused the others (R64). -/
def Mode.ofCode : Nat → Mode
  | 0 => .clean
  | 1 => .gray
  | 2 => .quick
  | _ => .ink

def PartState.code : PartState → Nat
  | .unconfigured => 0
  | .configuring => 1
  | .ready => 2
  | .halting => 3
  | .halted => 4

def CommandResult.code : CommandResult → Nat
  | .none => 0
  | .accepted => 1
  | .refusedState => 2
  | .refusedUnknown => 3
  | .busy => 4

def SetupError.code : SetupError → Nat
  | .none => 0
  | .badGeometry => 1
  | .badSegments => 2
  | .badTiming => 3
  | .badRegion => 4
  | .badBands => 5
  | .badRange => 6

def TempStatus.code : TempStatus → Nat
  | .none => 0
  | .valid => 1
  | .held => 2
  | .invalid => 3
  | .override => 4

def BankState.code : BankState → Nat
  | .empty => 0
  | .loading => 1
  | .ready => 2
  | .failed => 3

def BankId.code : BankId → Nat
  | .a => 0
  | .b => 1

def LibraryCode.code : LibraryCode → Nat
  | .none => 0
  | .badLength => 1
  | .badCode => 2
  | .unbalanced => 3
  | .noClean => 4

def RailState.code : RailState → Nat
  | .off => 0
  | .rising => 1
  | .on => 2
  | .falling => 3
  | .fault => 4

def RailCause.code : RailCause → Nat
  | .none => 0
  | .riseTimeout => 1
  | .railDrop => 2
  | .supplyAlert => 3

def LinkState.code : LinkState → Nat
  | .down => 0
  | .up => 1
  | .faulted => 2
  | .training => 3

def SlotStatus.code : SlotStatus → Nat
  | .idle => 0
  | .waiting => 1
  | .running => 2
  | .finished => 3

def Malformed.code : Malformed → Nat
  | .badMode => 1
  | .badPolicy => 2
  | .zeroSize => 3
  | .badPitch => 4
  | .badImage => 5

/-- The outcome code (10.7, Slot part half). -/
def SlotOutcome.code : SlotOutcome → Nat
  | .done => 1
  | .withdrawnAtTake => 2
  | .withdrawnWhileWaiting => 2
  | .malformed _ => 3
  | .nothingToDo => 4
  | .conflict => 5
  | .railsDown _ => 6
  | .segmentFault _ => 7
  | .noTemperature => 8
  | .modeAbsent => 9
  | .timedOut => 10
  | .halted => 11
  | .brokenByRails => 12
  | .brokenBySegment _ => 12

/-- The detail (10.7, Slot part half). -/
def SlotOutcome.detail : SlotOutcome → Nat
  | .withdrawnAtTake => 1
  | .withdrawnWhileWaiting => 2
  | .malformed why => why.code
  | .railsDown cause => cause.code
  | .segmentFault segment => segment.val
  | .brokenByRails => 4
  | .brokenBySegment segment => segment.val
  | .done => 0
  | .nothingToDo => 0
  | .conflict => 0
  | .noTemperature => 0
  | .modeAbsent => 0
  | .timedOut => 0
  | .halted => 0

/-- A number as one byte. -/
def byteOf (n : Nat) : Byte := BitVec.ofNat 8 n

/-- A number that may be absent, as one byte: 0xFF for none. -/
def optionByte : Option Nat → Byte
  | some n => byteOf n
  | none => 0xFF#8

/-- The flags word: bit 0 CLIPPED to bit 7 HOT_CLAMP (10.7, Slot part half). -/
def Flags.word (f : Flags) : Word :=
  BitVec.ofBool f.hotClamp ++ BitVec.ofBool f.coldClamp ++ BitVec.ofBool f.withdrawLate ++ BitVec.ofBool f.ghostRisk ++
    BitVec.ofBool f.forcedClean ++ BitVec.ofBool f.promoted ++ BitVec.ofBool f.rounded ++ BitVec.ofBool f.clipped |>.setWidth 16

/-! ## Pixel words (R1) -/

/-- The level the part believes the pixel shows. -/
def pixelCurrent (w : Word) : BitVec 4 := w.extractLsb' 0 4

/-- The level the owning lane drives the pixel toward. -/
def pixelTarget (w : Word) : BitVec 4 := w.extractLsb' 4 4

/-- The owning lane. -/
def pixelLane (w : Word) : BitVec 5 := w.extractLsb' 8 5

/-- The owned flag. -/
def pixelOwned (w : Word) : Bool := w.getLsbD 13

/-- The unknown flag. -/
def pixelUnknown (w : Word) : Bool := w.getLsbD 14

/-- A pixel word as the part writes it: bit 15 is 0. -/
def pixelWord (current target : BitVec 4) (lane : BitVec 5) (owned unknown : Bool) : Word :=
  0#1 ++ BitVec.ofBool unknown ++ BitVec.ofBool owned ++ lane ++ target ++ current

/-- The claim of R3. -/
def pixelClaim (w : Word) (target : BitVec 4) (lane : Fin 32) : Word :=
  pixelWord (pixelCurrent w) target (BitVec.ofNat 5 lane.val) true (pixelUnknown w)

/-- The completion of R4. -/
def pixelComplete (w : Word) : Word := pixelWord (pixelTarget w) (pixelTarget w) 0 false false

/-- The break of R5. -/
def pixelBreak (w : Word) : Word := pixelWord (pixelCurrent w) (pixelTarget w) 0 false true

/-- The release of R6. -/
def pixelRelease (w : Word) : Word := pixelWord (pixelCurrent w) (pixelTarget w) 0 false (pixelUnknown w)

/-- The from-level of R7. -/
def pixelFrom (w : Word) : Nat := if pixelUnknown w then 0 else (pixelCurrent w).toNat

/-- The word is owned by this lane. -/
def pixelOwnedBy (w : Word) (lane : Fin 32) : Bool := pixelOwned w && pixelLane w == BitVec.ofNat 5 lane.val

/-! ## Ledger entries and scratch records (R11, R18) -/

/-- A ledger entry's four quantities. -/
structure LedgerEntry where
  residue : Int
  partials : Nat
  stamp : Nat
  unknown : Int
  deriving DecidableEq, Repr

/-- The entry in its 8 bytes. -/
def LedgerEntry.decode (r : List Byte) : LedgerEntry :=
  { residue := (wordAt r 0).toInt, partials := byteAt r 2, stamp := (wordAt r 4).toNat, unknown := (wordAt r 6).toNat }

/-- The 8 bytes of an entry; byte 3 is written 0. -/
def LedgerEntry.encode (e : LedgerEntry) : List Byte :=
  wordBytes (BitVec.ofInt 16 e.residue) ++ [byteOf e.partials, 0#8] ++ wordBytes (BitVec.ofNat 16 e.stamp) ++
    wordBytes (BitVec.ofInt 16 e.unknown)

/-- A lane scratch record's fields. -/
structure ScratchRecord where
  net : Int
  cleared : Nat
  driven : Bool
  deriving DecidableEq, Repr

/-- The record in its 4 bytes. -/
def ScratchRecord.decode (r : List Byte) : ScratchRecord :=
  { net := (wordAt r 0).toInt, cleared := ((wordAt r 2).extractLsb' 0 9).toNat, driven := (wordAt r 2).getLsbD 15 }

/-- The 4 bytes of a record; bits 14..9 of the second word are written 0. -/
def ScratchRecord.encode (r : ScratchRecord) : List Byte :=
  wordBytes (BitVec.ofInt 16 r.net) ++ wordBytes (BitVec.ofBool r.driven ++ 0#6 ++ BitVec.ofNat 9 r.cleared)

/-! ## Slot halves (R58, R59) -/

/-- The host half of a slot, field by field. -/
def Intake.decode (r : List Byte) : Intake :=
  { postCount := r.getD 0 0#8, mark := r.getD 1 0#8, mode := byteAt r 2, ghostPolicy := byteAt r 3 % 16,
    conflictPolicy := byteAt r 3 / 16, waitLimit := (wordAt r 4).toNat, x := (wordAt r 6).toNat, y := (wordAt r 8).toNat,
    w := (wordAt r 10).toNat, h := (wordAt r 12).toNat, tag := wordAt r 14, image := (dwordAt r 16).toNat,
    pitch := (wordAt r 20).toNat }

/-- The word that carries seen count and status (R59). -/
def statusBytes (seen : Byte) (status : SlotStatus) : List Byte := [seen, byteOf status.code]

/-- The outcome fields of a finish, offsets 2 to 27 of the part half (R68, first write). -/
def Finish.outcomeBytes (f : Finish) : List Byte :=
  [byteOf f.outcome.code, byteOf f.outcome.detail] ++ wordBytes f.flags.word ++
    [optionByte (f.mode.map Mode.code), optionByte (f.lane.map Fin.val)] ++ dwordBytes f.startFrame ++
    dwordBytes f.endFrame ++ dwordBytes (BitVec.ofNat 32 f.driven) ++ dwordBytes (BitVec.ofNat 32 f.leftUnknown) ++
    wordBytes (BitVec.ofNat 16 f.score) ++ wordBytes f.tag

/-- A part half as the resynchronisation writes it: IDLE, the post count as its seen count, every other field at its none
value (R73). That the client tag echo's is 0 is a DESIGN CHOICE (notes/assumptions/38.md): R59 names no none value for it. -/
def idlePartHalf (seen : Byte) : List Byte :=
  statusBytes seen .idle ++ [0#8, 0#8, 0#8, 0#8, 0xFF#8, 0xFF#8] ++ List.replicate 24 0#8

/-! ## Board header (R71, R72) -/

/-- Where a header field lies and the bytes it takes, from the board base. -/
def HeaderWrite.bytes : HeaderWrite → Nat × List Byte
  | .frameNumber n => (36, dwordBytes n)
  | .partState p => (40, [byteOf p.code])
  | .temperature t => (42, wordBytes (BitVec.ofInt 16 t))
  | .tempStatus st => (44, [byteOf st.code])
  | .band b => (45, [optionByte b])
  | .bank .a st loaded => (46, [byteOf st.code, optionByte loaded])
  | .bank .b st loaded => (48, [byteOf st.code, optionByte loaded])
  | .activeBank id => (50, [optionByte (id.map BankId.code)])
  | .libraryError e =>
    (52, [byteOf e.code.code, byteOf e.band, byteOf e.bank.code, byteOf e.mode, byteOf e.fromLevel, byteOf e.toLevel,
      byteOf e.frame, 0#8])
  | .railState r => (60, [byteOf r.code])
  | .railCause c => (61, [byteOf c.code])
  | .segment s state window total =>
    (68 + 8 * s.val, [byteOf state.code, 0#8] ++ wordBytes (BitVec.ofNat 16 window) ++ dwordBytes total)
  | .pendingCount n => (62, [byteOf n])
  | .lanesInUse n => (63, [byteOf n])
  | .blockedAddress a => (64, dwordBytes (BitVec.ofNat 32 a))
  | .tally counters n => (100, counters.toList.flatMap dwordBytes ++ dwordBytes n)

/-- The header's part half, offsets 32 to 255, as the resynchronisation writes it for `n` segments (R73). -/
def initialHeader (n : Nat) : List Byte :=
  dwordBytes 0 ++ dwordBytes 0 ++ [byteOf PartState.ready.code, 0#8] ++ wordBytes 0 ++
    [byteOf TempStatus.none.code, 0xFF#8] ++ [byteOf BankState.empty.code, 0xFF#8, byteOf BankState.empty.code, 0xFF#8] ++
    [0xFF#8, 0#8] ++ List.replicate 8 0#8 ++ [byteOf RailState.off.code, byteOf RailCause.none.code, 0#8, 0#8] ++
    dwordBytes 0 ++
    (List.range 4).flatMap (fun s => byteOf (if s < n then LinkState.up.code else LinkState.down.code) ::
      List.replicate 7 0#8) ++
    List.replicate 156 0#8

/-- A tally configuration word's fields (10.7, Board header). -/
def TallyConfig.decode (w : Word) : TallyConfig :=
  { enable := w.getLsbD 0, invert := w.getLsbD 1, edge := w.getLsbD 2, freeze := w.getLsbD 3,
    select := (w.extractLsb' 4 4).toNat, threshold := (w.extractLsb' 8 6).toNat }

/-! ## Setup record -/

/-- The byte addresses of the words START reads of the setup record: offsets 0 to 60 and 64 to 70 (10.7, Setup record).
That it reads them in rising address order is a DESIGN CHOICE (notes/assumptions/29.md). -/
def setupAddresses : List Nat := (List.range 31).map (2 * ·) ++ [64, 66, 68, 70]

/-- The setup record out of the words read at `setupAddresses`. -/
def Setup.decode (words : List Word) : Setup :=
  let r := bytesOf (words.take 31) ++ [0#8, 0#8] ++ bytesOf (words.drop 31)
  { width := (wordAt r 0).toNat, height := (wordAt r 2).toNat, segments := byteAt r 4, planeInit := byteAt r 5,
    framePeriod := (wordAt r 6).toNat, boardBase := (dwordAt r 8).toNat, planeBase := (dwordAt r 12).toNat,
    ledgerBase := (dwordAt r 16).toNat, scratchBase := (dwordAt r 20).toNat, libraryBase := (dwordAt r 24).toNat,
    imageBase := (dwordAt r 28).toNat, imageSize := (dwordAt r 32).toNat, ghostThreshold := r.getD 36 0#8,
    partialWeight := byteAt r 37, halfLife := (wordAt r 38).toNat, sensorAddress := byteAt r 40,
    sensorRegister := r.getD 41 0#8, sensorInterval := byteAt r 42, hysteresis := byteAt r 43,
    staleLimit := (wordAt r 44).toNat,
    stepDelays := [byteAt r 46, byteAt r 47, byteAt r 48, byteAt r 49, byteAt r 50], riseTimeout := byteAt r 51,
    blankingTime := byteAt r 52, wakeQualify := byteAt r 53, idleHold := (wordAt r 54).toNat,
    window := (wordAt r 56).toNat, errorLimit := r.getD 58 0#8, matchCount := byteAt r 59, attempts := byteAt r 60,
    pattern := (r.drop 64).take 8 }

/-- The 13 band bounds out of the seven words read at the library base: signed bytes at offsets 0 to 12 (R29). -/
def boundsOf (words : List Word) : List Int := ((bytesOf words).take 13).map BitVec.toInt

/-- The float format of the ghost threshold and the error limit: m × 16^e (R17, R137). -/
def floatValue (b : Byte) : Nat := (b.toNat / 16) * 16 ^ (b.toNat % 16)

end Sys2Proof.Machine
end

