-- ==== Sys2Proof/Machine/Ops.lean ====
section
/-! DEFINITION. The hand-offs that blocks make to one another: a header field or a finish to the board writer, a trigger
to the scanner or the admission unit, an occurrence to the tally; and the small accessors the blocks share. -/

namespace Sys2Proof.Machine

/-- A setup copy of zeros: what `State.cfg` answers while there is none. -/
def Setup.blank : Setup :=
  { width := 0, height := 0, segments := 0, planeInit := 0, framePeriod := 0, boardBase := 0, planeBase := 0, ledgerBase := 0,
    scratchBase := 0, libraryBase := 0, imageBase := 0, imageSize := 0, ghostThreshold := 0, partialWeight := 0,
    halfLife := 0, sensorAddress := 0, sensorRegister := 0, sensorInterval := 0, hysteresis := 0, staleLimit := 0,
    stepDelays := [], riseTimeout := 0, blankingTime := 0, wakeQualify := 0, idleHold := 0, window := 0, errorLimit := 0,
    matchCount := 0, attempts := 0, pattern := [] }

/-- The setup copy the part works from (R165). -/
def State.cfg (s : State) : Setup := s.setup.getD Setup.blank

/-- READY, HALTING or HALTED: the blocks run (R162). -/
def State.configured (s : State) : Bool :=
  match s.port.partState with
  | .ready => true
  | .halting => true
  | .halted => true
  | .unconfigured => false
  | .configuring => false

/-- A trigger of a pass (R76): with none in progress it starts one, which stands at the front of the list, and on an empty list
has ended at once; during a pass it sets the further-pass flag. -/
def Admission.trigger (a : Admission) : Admission :=
  if a.passActive then { a with passDue := true }
  else
    { a with passActive := !a.list.isEmpty, passDue := false, list := a.list.map fun e => { e with examined := false } }

/-- A trigger of R76, which counts in READY only. -/
def triggerPass (s : State) : State :=
  if s.port.partState = .ready then { s with admission := s.admission.trigger } else s

/-- A scan that starts: it stands at the cursor as it finds it, and has read nothing yet (R62, R66). -/
def Scan.start (cursor : Fin 64) : Scan := ⟨cursor, 0, false, none, false, false, none⟩

/-- A trigger of a scan (R66): with none in progress it starts one; during a scan it causes one further scan. -/
def Board.trigger (b : Board) : Board :=
  match b.scan with
  | some _ => { b with scanDue := true }
  | none => { b with scan := some (Scan.start b.cursor) }

/-- A trigger of R66, which counts in READY only. -/
def triggerScan (s : State) : State :=
  if s.port.partState = .ready then { s with board := s.board.trigger } else s

/-- A request handed to the board writer: it waits in the order of its arrival (R67). -/
def handRequest (r : BoardRequest) (s : State) : State :=
  { s with board := { s.board with queue := s.board.queue ++ [r] } }

/-- A header field handed to the board writer. In UNCONFIGURED and CONFIGURING the header's part half is not written but
by START itself (R71). -/
def handHeader (w : HeaderWrite) (s : State) : State :=
  if s.configured then handRequest (.header w) s else s

/-- The slot record of a slot. -/
def State.slot (s : State) (i : Fin 64) : Slot := s.board.slots[i]

/-- A slot record replaced. -/
def setSlot (i : Fin 64) (r : Slot) (s : State) : State :=
  { s with board := { s.board with slots := s.board.slots.set i.val r } }

/-- The lane record of a lane. -/
def State.lane (s : State) (l : Fin 32) : Lane := s.lanes[l]

/-- A lane record replaced. -/
def setLane (l : Fin 32) (r : Lane) (s : State) : State := { s with lanes := s.lanes.set l.val r }

/-- The link record of a segment. -/
def State.link (s : State) (k : Fin 4) : Link := s.links[k]

/-- A link record replaced. -/
def setLink (k : Fin 4) (r : Link) (s : State) : State := { s with links := s.links.set k.val r }

/-- The intake copy of a slot. -/
def State.intake (s : State) (i : Fin 64) : Intake := (s.slot i).intake.getD (Intake.decode [])

/-- The finish of a request that no lane carries: the slot's status as the board writer holds it becomes FINISHED in the
same step (R70, R97), and the finish waits at the board writer. -/
def handFinish (f : Finish) (s : State) : State :=
  handRequest (.finish f) (setSlot f.slot { s.slot f.slot with seen := f.seen, status := .finished } s)

/-- A finish with every field at its none value but those given (R59). -/
def Finish.refusal (slot : Fin 64) (seen : Byte) (tag : Word) (outcome : SlotOutcome) (flags : Flags) (mode : Option Mode)
    (score : Nat) : Finish :=
  { slot := slot, seen := seen, outcome := outcome, flags := flags, mode := mode, lane := none, startFrame := 0,
    endFrame := 0, driven := 0, leftUnknown := 0, score := score, tag := tag }

/-! ## Notices (R173, R174) -/

/-- COMPLETION: a level, while the kept count differs from NOTICE_ACK (R174). -/
def Notice.completion (n : Notice) : Bool := n.kept != n.ack

/-- NOTICE_CAUSE as it reads: bit 0 COMPLETION, then the sticky causes in the order of 10.7. -/
def Notice.causes (n : Notice) : Byte :=
  BitVec.ofBool n.halted ++ BitVec.ofBool n.blockedWrite ++ BitVec.ofBool n.temperature ++ BitVec.ofBool n.libraryError ++
    BitVec.ofBool n.segmentFault ++ BitVec.ofBool n.railFault ++ BitVec.ofBool n.startDone ++ BitVec.ofBool n.completion

/-- The notice line: asserted while a cause is set whose mask bit is set (R174). -/
def State.noticeLine (s : State) : Bool := (s.notice.causes &&& s.notice.mask) != 0#8

/-! ## The tally's occurrences (R170) -/

/-- The count events' select values (R170; 10.7, Board header). -/
inductive CountEvent where
  | frames
  | lanesStarted
  | pixelsCompleted
  | promotions
  | conflictDeferrals
  | timeouts
  | segmentMismatches
  | railGlitches
  deriving DecidableEq, Repr

def CountEvent.select : CountEvent → Nat
  | .frames => 0
  | .lanesStarted => 1
  | .pixelsCompleted => 2
  | .promotions => 3
  | .conflictDeferrals => 4
  | .timeouts => 5
  | .segmentMismatches => 6
  | .railGlitches => 7

/-- What `n` occurrences of an event do to one counter: an enabled counter that selects it adds them, unless its freeze
is set and the rails are in FAULT (R170). -/
def TallyCounter.count (inFault : Bool) (e : CountEvent) (n : Nat) (c : TallyCounter) : TallyCounter :=
  if c.config.enable && c.config.select == e.select && !(c.config.freeze && inFault) then
    { c with value := c.value + BitVec.ofNat 32 n }
  else c

/-- `n` occurrences of an event handed to the tally (R170). That they reach it in the step that makes them, so that no FAULT or
arrival in OFF of a later step overtakes them, is a DESIGN CHOICE (notes/assumptions/35.md). -/
def tallyEvent (e : CountEvent) (n : Nat) (s : State) : State :=
  { s with tally := { s.tally with
      counters := s.tally.counters.map (TallyCounter.count (s.rails.state == .fault) e n) } }

/-! ## Segments (R131) -/

/-- The columns of one segment. -/
def segmentWidth (c : Setup) : Nat := c.width / c.segments

/-- A rectangle touches segment `k` when one of its columns lies in it (R131). -/
def touches (c : Setup) (k : Nat) (r : Rect) : Bool :=
  decide (k < c.segments) && decide (r.x < (k + 1) * segmentWidth c) && decide (k * segmentWidth c < r.x + r.w)

/-- A link that admission must refuse for (R80). -/
def Link.bad (l : Link) : Bool := l.state == .faulted || l.state == .training

/-- The lowest-numbered segment that is FAULTED or TRAINING among those a rectangle touches (R80, R88, R125). -/
def lowestBadSegment (r : Rect) (s : State) : Option (Fin 4) :=
  (List.finRange 4).find? (fun k => touches s.cfg k.val r && (s.link k).bad)

/-! ## Lanes and their count (R112) -/

/-- The number of lanes out of FREE. -/
def State.lanesOut (s : State) : Nat := s.lanes.toList.countP (fun l => l.state != .free)

/-- The part state moves, and the part-state logic hands it to the board writer (R162). -/
def setPartState (p : PartState) (s : State) : State :=
  handHeader (.partState p) { s with port := { s.port with partState := p } }

end Sys2Proof.Machine
end

