-- ==== Sys2Proof/Machine/Banks.lean ====
section
/-! DEFINITION. The waveform library, the banks and the load request (chapter 2), with LOAD_SUCCESS and LOAD_FAILURE. -/

namespace Sys2Proof.Machine

/-! ## Modes and entries -/

/-- The rounding maps of R25. -/
def roundLevel (mode : Mode) (level : Nat) : Nat :=
  match mode with
  | .clean => level
  | .gray => level
  | .quick => if level ≤ 2 then 0 else if level ≤ 7 then 5 else if level ≤ 12 then 10 else 15
  | .ink => if level ≤ 7 then 0 else 15

/-- The net charge N of an entry: RAISE frames less LOWER frames (R28). -/
def netCharge (e : Waveform) : Int := (e.count .raise : Int) - (e.count .lower : Int)

/-- Frame `f` of an entry's 17 bytes, as its two bits (R27). -/
def frameBits (entry : List Byte) (f : Nat) : BitVec 2 := (entry.getD (1 + f / 4) 0#8).extractLsb' (2 * (f % 4)) 2

/-- A legal drive code (R24); code 3 never reaches this, because the check of R32 has stopped there. -/
def DriveCode.ofBits (b : BitVec 2) : DriveCode :=
  if b = 1#2 then .raise else if b = 2#2 then .lower else .zero

/-- The two bits of a drive code (R24, R133). -/
def DriveCode.bits : DriveCode → BitVec 2
  | .zero => 0#2
  | .raise => 1#2
  | .lower => 2#2

/-- Why a load stops at an entry: the code and the frame (R32). -/
inductive EntryCheck where
  | good (e : Waveform)
  | bad (code : LibraryCode) (frame : Nat)
  deriving DecidableEq, Repr

/-- One entry decoded and checked, in the order of R32: the length before its codes, the codes over its length only, the
balance of a CLEAN entry last. -/
def checkEntry (clean : Bool) (entry : List Byte) : EntryCheck :=
  let len := byteAt entry 0
  if Config.maxFrames < len then .bad .badLength 0
  else
    match (List.range len).find? (fun f => frameBits entry f == 3#2) with
    | some f => .bad .badCode f
    | none =>
      let e : Waveform := (List.range len).map fun f => DriveCode.ofBits (frameBits entry f)
      if clean && netCharge e != 0 then .bad .unbalanced 0 else .good e

/-- What a load of one band block comes to (R31). -/
inductive LoadResult where
  | success (entries : List Waveform)
  | failure (e : LibraryError)
  deriving DecidableEq, Repr

/-- The rest of a load: `n` entries from index `k` of 1,024, the entries decoded so far in reverse. After the last CLEAN
entry the mode length of CLEAN is checked (R32, NO_CLEAN). -/
def loadEntries (band : Nat) (bank : BankId) : Nat → Nat → List Byte → List Waveform → LoadResult
  | 0, _, _, done => .success done.reverse
  | n + 1, k, block, done =>
    if k = Config.tableEntries && done.all List.isEmpty then .failure ⟨.noClean, band, bank, 0, 0, 0, 0⟩
    else
      match checkEntry (decide (k < Config.tableEntries)) (block.take Config.entryBytes) with
      | .bad code frame => .failure ⟨code, band, bank, k / 256, k % 256 / 16, k % 16, frame⟩
      | .good e => loadEntries band bank n (k + 1) (block.drop Config.entryBytes) (e :: done)

/-- A whole band block loaded (R31). -/
def loadBlock (band : Nat) (bank : BankId) (block : List Byte) : LoadResult := loadEntries band bank 1024 0 block []

/-! ## The bank unit -/

/-- A bank by its name. -/
def BankUnit.get (u : BankUnit) : BankId → Bank
  | .a => u.a
  | .b => u.b

/-- A bank replaced. -/
def BankUnit.put (u : BankUnit) (id : BankId) (bank : Bank) : BankUnit :=
  match id with
  | .a => { u with a := bank }
  | .b => { u with b := bank }

/-- The other bank. -/
def BankId.other : BankId → BankId
  | .a => .b
  | .b => .a

/-- The lookup of R34: the entry for a mode, a from-level and a target. -/
def Bank.entry (bank : Bank) (mode : Mode) (fromLevel target : Nat) : Waveform :=
  bank.entries.getD (256 * mode.code + 16 * fromLevel + target) []

/-- A mode length: the largest ℓ of the mode's 256 entries; 0 where the mode is absent (R28). -/
def Bank.modeLength (bank : Bank) (mode : Mode) : Nat :=
  (List.range Config.tableEntries).foldl (fun acc i => max acc (bank.entries.getD (256 * mode.code + i) []).length) 0

/-- A bank changes state or band, and the board writer is handed both (R44). -/
def setBank (id : BankId) (bank : Bank) (s : State) : State :=
  handHeader (.bank id bank.state bank.band) { s with banks := s.banks.put id bank }

/-- A load starts, or starts again for a newer band: its target is LOADING that band and nothing of it has been read
(R33, R37, R38). -/
def startLoad (target : BankId) (band : Nat) (s : State) : State :=
  setBank target { s.banks.get target with state := .loading, band := some band, entries := #[] }
    { s with banks := { s.banks with request := some ⟨target, band, .reading []⟩ } }

/-- The target of a new request: the bank that is not active, or bank A where there is no active bank (R37). -/
def loadTarget (u : BankUnit) : BankId :=
  match u.active with
  | some id => id.other
  | none => .a

/-- A load request for a newly selected band (R37, R38): a new one starts or is deferred by its target's reference count;
a deferred one names the newest band; one in progress restarts. -/
def requestLoad (band : Nat) (s : State) : State :=
  match s.banks.request with
  | none =>
    if (s.banks.get (loadTarget s.banks)).refs = 0 then startLoad (loadTarget s.banks) band s
    else { s with banks := { s.banks with request := some ⟨loadTarget s.banks, band, .deferred⟩ } }
  | some ⟨target, _, .deferred⟩ => { s with banks := { s.banks with request := some ⟨target, band, .deferred⟩ } }
  | some ⟨target, _, .reading _⟩ => startLoad target band s

/-- A lane is claimed and records a bank (R35). -/
def bankClaimed (id : BankId) (s : State) : State :=
  { s with banks := s.banks.put id { s.banks.get id with refs := (s.banks.get id).refs + 1 } }

/-- A deferred load onto a bank starts once no lane holds the bank (R38). -/
def startDeferred (id : BankId) (s : State) : State :=
  match s.banks.request with
  | some ⟨target, band, .deferred⟩ =>
    if target = id ∧ (s.banks.get id).refs = 0 then startLoad target band s else s
  | _ => s

/-- A lane that recorded a bank returns to FREE (R35, R38). -/
def bankReleased (id : BankId) (s : State) : State :=
  startDeferred id { s with banks := s.banks.put id { s.banks.get id with refs := (s.banks.get id).refs - 1 } }

/-- The byte address of a band block (R26). -/
def bandBlock (c : Setup) (band : Nat) : Nat := c.libraryBase + Config.libraryHeaderBytes + Config.bandBytes * band

/-- The band block of a load: the words read so far as they were read, the rest as it stands now (R30). -/
def loadBytes (c : Setup) (band : Nat) (words : List Word) (m : Memory) : List Byte :=
  bytesOf words ++ m.readBytes (bandBlock c band + 2 * words.length) (Config.bandBytes - 2 * words.length)

/-- A check of R32 fails on an entry of which these bytes have been read, whatever the others are: the length by its byte, a
code by its own, the balance once every code of the length has been read. -/
def entryStops (clean : Bool) (bytes : List Byte) : Bool :=
  match checkEntry clean bytes with
  | .good _ => false
  | .bad .unbalanced _ => decide (byteAt bytes 0 ≤ 4 * (bytes.length - 1))
  | .bad _ _ => true

/-- The same for the rest of a band block of which `bytes` have been read, from index `k` on, `n` entries at most; `drives`: a
CLEAN entry before it has a length of at least 1 (R32, NO_CLEAN). -/
def blockStops : Nat → Nat → List Byte → Bool → Bool
  | 0, _, _, _ => false
  | n + 1, k, bytes, drives =>
    k == Config.tableEntries && !drives || entryStops (decide (k < Config.tableEntries)) (bytes.take Config.entryBytes) ||
      (!(bytes.drop (Config.entryBytes - 1)).isEmpty &&
        blockStops n (k + 1) (bytes.drop Config.entryBytes) (drives || decide (0 < byteAt bytes 0)))

/-- A load that has read these words of its band block has met a failing check, and reads no further (R31). That each check is
made with the word that settles it is DEDUCED (notes/assumptions/34.md). -/
def loadStopped (words : List Word) : Bool := blockStops 1024 0 (bytesOf words) false

/-- The load in progress reads one more word of its band block, up to its end or its first failing check (R30, R31). -/
def loadTick (s : State) : State :=
  match s.banks.request with
  | some ⟨target, band, .reading words⟩ =>
    if words.length < Config.bandBytes / 2 ∧ loadStopped words = false then
      { s with banks := { s.banks with
          request := some ⟨target, band, .reading (words ++ [s.dram.readWord (bandBlock s.cfg band + 2 * words.length)])⟩ } }
    else s
  | _ => s

/-- The load reaches the end of the INK table (R39). -/
def finishLoad (target : BankId) (band : Nat) (entries : List Waveform) (s : State) : State :=
  let s := { s with banks := { s.banks with request := none, active := some target } }
  let s := setBank target { s.banks.get target with state := .ready, band := some band, entries := entries.toArray } s
  triggerPass (handHeader (.activeBank (some target)) s)

/-- The load stops at a failing check (R40). -/
def failLoad (target : BankId) (band : Nat) (e : LibraryError) (s : State) : State :=
  let s := { s with banks := { s.banks with request := none, libraryError := e },
                    notice := { s.notice with libraryError := true } }
  let s := setBank target { s.banks.get target with state := .failed, band := some band, entries := #[] } s
  handHeader (.libraryError e) s

/-- LOAD_SUCCESS (R39): the load in progress reads to its end and every check passes. It is not this command where there
is no load in progress or a check fails. -/
def execLoadSuccess (s : State) : Host.Outcome State Fault Refusal :=
  match s.banks.request with
  | some ⟨target, band, .reading words⟩ =>
    match loadBlock band target (loadBytes s.cfg band words s.dram) with
    | .success entries => .next (finishLoad target band entries s)
    | .failure _ => .next s
  | _ => .next s

/-- LOAD_FAILURE (R40): the load in progress meets a failing check and stops there. It is not this command where there is
no load in progress or no check fails. -/
def execLoadFailure (s : State) : Host.Outcome State Fault Refusal :=
  match s.banks.request with
  | some ⟨target, band, .reading words⟩ =>
    match loadBlock band target (loadBytes s.cfg band words s.dram) with
    | .success _ => .next s
    | .failure e => .next (failLoad target band e s)
  | _ => .next s

end Sys2Proof.Machine
end

