-- ==== Sys2Proof/Machine/Plane.lean ====
section
/-! DEFINITION. The pixel plane and the tiling of the panel (chapter 1.1, R1 to R11). -/

namespace Sys2Proof.Machine

/-- The byte address of a pixel word (R1). -/
def pixelAddress (c : Setup) (x y : Nat) : Nat := c.planeBase + 2 * (y * c.width + x)

/-- `n` pixel words of row `y` from column `x`. -/
def rowWords (c : Setup) (x y n : Nat) (m : Memory) : List Word := wordsOf (m.readBytes (pixelAddress c x y) (2 * n))

/-- The pixels of a rectangle with their words, row by row from the top, left to right within a row. -/
def rectPixels (c : Setup) (r : Rect) (m : Memory) : List (Nat × Nat × Word) :=
  (List.range r.h).flatMap fun j => (rowWords c r.x (r.y + j) r.w m).mapIdx fun i w => (r.x + i, r.y + j, w)

/-- One row of a rectangle rewritten word by word. -/
def rewriteRow (c : Setup) (x y n : Nat) (g : Nat → Nat → Word → Word) (m : Memory) : Memory :=
  m.write (pixelAddress c x y) (bytesOf ((rowWords c x y n m).mapIdx fun i w => g (x + i) y w))

/-- Every word of a rectangle rewritten by `g`, which is given its column and row. -/
def rewriteRect (c : Setup) (r : Rect) (g : Nat → Nat → Word → Word) (m : Memory) : Memory :=
  (List.range r.h).foldl (fun m j => rewriteRow c r.x (r.y + j) r.w g m) m

/-- The first `n` words of a rectangle, row by row from the top and left to right, rewritten by `g`. -/
def rewriteRectPart (c : Setup) (r : Rect) (n : Nat) (g : Nat → Nat → Word → Word) (m : Memory) : Memory :=
  (List.range r.h).foldl (fun m j => rewriteRow c r.x (r.y + j) (min r.w (n - j * r.w)) g m) m

/-- The whole panel. -/
def panelRect (c : Setup) : Rect := ⟨0, 0, c.width, c.height⟩

/-- Two rectangles share a pixel: their column ranges and their row ranges intersect (R98). -/
def Rect.overlaps (p q : Rect) : Bool :=
  decide (p.x < q.x + q.w) && decide (q.x < p.x + p.w) && decide (p.y < q.y + q.h) && decide (q.y < p.y + p.h)

/-- The pixel lies in the rectangle. -/
def Rect.contains (r : Rect) (x y : Nat) : Bool :=
  decide (r.x ≤ x) && decide (x < r.x + r.w) && decide (r.y ≤ y) && decide (y < r.y + r.h)

/-! ## Tiles (R11) -/

/-- Tiles in a row. -/
def tilesWide (c : Setup) : Nat := c.width / 16

/-- Tiles of the panel. -/
def tileCount (c : Setup) : Nat := (c.width / 16) * (c.height / 16)

/-- The tile index of R11 and R18. -/
def tileIndex (c : Setup) (tx ty : Nat) : Nat := ty * tilesWide c + tx

/-- The pixels of a tile. -/
def tileRect (tx ty : Nat) : Rect := ⟨16 * tx, 16 * ty, 16, 16⟩

/-- The tiles a rectangle intersects, row by row from the top, left to right within a row (R82). -/
def rectTiles (r : Rect) : List (Nat × Nat) :=
  if r.w = 0 ∨ r.h = 0 then []
  else
    (List.range ((r.y + r.h - 1) / 16 - r.y / 16 + 1)).flatMap fun j =>
      (List.range ((r.x + r.w - 1) / 16 - r.x / 16 + 1)).map fun i => (r.x / 16 + i, r.y / 16 + j)

/-- All tiles of the panel, in tile order. -/
def panelTiles (c : Setup) : List (Nat × Nat) :=
  (List.range (c.height / 16)).flatMap fun ty => (List.range (c.width / 16)).map fun tx => (tx, ty)

/-- The tile lies wholly inside the rectangle (R19). -/
def tileInside (r : Rect) (tx ty : Nat) : Bool :=
  decide (r.x ≤ 16 * tx) && decide (16 * tx + 16 ≤ r.x + r.w) && decide (r.y ≤ 16 * ty) && decide (16 * ty + 16 ≤ r.y + r.h)

/-! ## START's plane pass (R9) -/

/-- What the plane pass makes of one pixel word, by the plane-init field: 0 WHITE, 1 UNKNOWN, 2 KEEP. -/
def planeInitWord (planeInit : Nat) (w : Word) : Word :=
  match planeInit with
  | 0 => pixelWord 15 15 0 false false
  | 1 => pixelWord 15 15 0 false true
  | _ => pixelWord (pixelCurrent w) (pixelTarget w) 0 false (pixelOwned w || pixelUnknown w)

/-- The plane pass over every pixel word of the panel. -/
def planePass (c : Setup) (m : Memory) : Memory := rewriteRect c (panelRect c) (fun _ _ w => planeInitWord c.planeInit w) m

end Sys2Proof.Machine
end

