-- ==== Sys2Proof/Machine/Ledger.lean ====
section
/-! DEFINITION. The tile ledger and the lane scratch (chapter 1.2, R11 to R22). -/

namespace Sys2Proof.Machine

/-- The byte address of a tile's entry (R11). -/
def ledgerAddress (c : Setup) (tx ty : Nat) : Nat := c.ledgerBase + 8 * tileIndex c tx ty

/-- A tile's entry as it stands. -/
def readEntry (c : Setup) (tx ty : Nat) (m : Memory) : LedgerEntry :=
  LedgerEntry.decode (m.readBytes (ledgerAddress c tx ty) 8)

/-- A tile's entry written back whole (R13). -/
def writeEntry (c : Setup) (tx ty : Nat) (e : LedgerEntry) (m : Memory) : Memory :=
  m.write (ledgerAddress c tx ty) e.encode

/-- The byte address of a lane's scratch record for a tile (R18). -/
def scratchAddress (c : Setup) (lane : Fin 32) (tx ty : Nat) : Nat :=
  c.scratchBase + 4 * (lane.val * tileCount c + tileIndex c tx ty)

/-- A scratch record as it stands. -/
def readScratch (c : Setup) (lane : Fin 32) (tx ty : Nat) (m : Memory) : ScratchRecord :=
  ScratchRecord.decode (m.readBytes (scratchAddress c lane tx ty) 4)

/-- A scratch record written. -/
def writeScratch (c : Setup) (lane : Fin 32) (tx ty : Nat) (r : ScratchRecord) (m : Memory) : Memory :=
  m.write (scratchAddress c lane tx ty) r.encode

/-- The low 16 bits of D (R12). -/
def State.tick (s : State) : Nat := s.monitor.ticks.toNat % 65536

/-- The settle of R14 at tick `now`: R halved once per elapsed tick, truncating toward zero; T becomes `now`. -/
def LedgerEntry.settle (now : Nat) (e : LedgerEntry) : LedgerEntry :=
  { e with residue := e.residue.tdiv (2 ^ min ((now + 65536 - e.stamp) % 65536) 15), stamp := now }

/-- The ghost score of R16. -/
def ghostScore (c : Setup) (e : LedgerEntry) : Nat := e.residue.natAbs / 16 + e.partials * c.partialWeight

/-- The ghost condition of R17. -/
def meetsGhost (c : Setup) (score : Nat) : Bool := decide (floatValue c.ghostThreshold ≤ 16 * score)

/-- No tile read yet. -/
def LedgerReading.none : LedgerReading := ⟨false, false, 0⟩

/-- Settle-and-read of one tile (R15), added to what the earlier tiles gave. -/
def settleAndRead (c : Setup) (now : Nat) (tile : Nat × Nat) (acc : Memory × LedgerReading) : Memory × LedgerReading :=
  let e := (readEntry c tile.1 tile.2 acc.1).settle now
  let score := ghostScore c e
  (writeEntry c tile.1 tile.2 e acc.1,
    { anyUnknown := acc.2.anyUnknown || decide (0 < e.unknown), anyGhost := acc.2.anyGhost || meetsGhost c score,
      highest := max acc.2.highest score })

/-- Settle-and-read of some tiles, one after another. -/
def readTiles (c : Setup) (now : Nat) (tiles : List (Nat × Nat)) (acc : Memory × LedgerReading) : Memory × LedgerReading :=
  tiles.foldl (fun acc tile => settleAndRead c now tile acc) acc

/-- Step 3 of an examination: settle-and-read of every tile the rectangle intersects (R82). -/
def ledgerRead (c : Setup) (now : Nat) (r : Rect) (m : Memory) : Memory × LedgerReading :=
  readTiles c now (rectTiles r) (m, LedgerReading.none)

/-- The clamp of R19. -/
def clampResidue (r : Int) : Int := max (-Config.residueLimit) (min Config.residueLimit r)

/-- The entry after settle-and-apply (R19): `whole` where the lane's mode is CLEAN and the tile lies wholly inside its
clipped rectangle. -/
def LedgerEntry.apply (now : Nat) (whole : Bool) (r : ScratchRecord) (e : LedgerEntry) : LedgerEntry :=
  let e := e.settle now
  let charged := clampResidue (e.residue + r.net)
  { e with
    residue := if whole then charged.tdiv 2 else charged
    partials := if whole then 0 else min (e.partials + 1) 255
    unknown := e.unknown - r.cleared }

/-- Settle-and-apply on one tile (R19). -/
def settleAndApply (c : Setup) (now : Nat) (whole : Bool) (lane : Fin 32) (tx ty : Nat) (m : Memory) : Memory :=
  writeEntry c tx ty ((readEntry c tx ty m).apply now whole (readScratch c lane tx ty m)) m

/-- The entry after a break-mark with `q` pixels found still owned (R20). -/
def LedgerEntry.breakMark (now q : Nat) (r : ScratchRecord) (e : LedgerEntry) : LedgerEntry :=
  let e := e.settle now
  { e with unknown := e.unknown + q - r.cleared, partials := if 0 < q then 255 else e.partials }

/-- Break-mark on one tile (R20). -/
def breakMark (c : Setup) (now : Nat) (lane : Fin 32) (tx ty q : Nat) (m : Memory) : Memory :=
  writeEntry c tx ty ((readEntry c tx ty m).breakMark now q (readScratch c lane tx ty m)) m

/-- The tiles of a lane's rectangle whose driven flag is set in its scratch (R19, R20). -/
def drivenTiles (c : Setup) (lane : Fin 32) (r : Rect) (m : Memory) : List (Nat × Nat) :=
  (rectTiles r).filter fun tile => (readScratch c lane tile.1 tile.2 m).driven

/-! ## START's ledger pass (R22) -/

/-- The number of a tile's pixel words with unknown set. -/
def unknownPixels (c : Setup) (tx ty : Nat) (m : Memory) : Nat :=
  (rectPixels c (tileRect tx ty) m).countP fun p => pixelUnknown p.2.2

/-- What the ledger pass writes for one tile, by the plane-init field: 0 WHITE, 1 UNKNOWN, 2 KEEP. -/
def ledgerInitEntry (c : Setup) (tx ty : Nat) (m : Memory) : LedgerEntry :=
  match c.planeInit with
  | 0 => ⟨0, 0, 0, 0⟩
  | 1 => ⟨0, 255, 0, 256⟩
  | _ =>
    let e := readEntry c tx ty m
    ⟨max e.residue (-Config.residueLimit), e.partials, 0, unknownPixels c tx ty m⟩

/-- The ledger pass over every entry of the panel. -/
def ledgerPass (c : Setup) (m : Memory) : Memory :=
  (panelTiles c).foldl (fun m tile => writeEntry c tile.1 tile.2 (ledgerInitEntry c tile.1 tile.2 m) m) m

end Sys2Proof.Machine
end

