-- ==== Sys2Proof/Machine/Lanes.lean ====
section
/-! DEFINITION. The lane table, the close of a lane and the fault steps (chapter 7.1, 7.4, 7.5). -/

namespace Sys2Proof.Machine

/-! ## The close (R120, R121) -/

/-- The outcome, the frame numbers and the pixel counts a lane hands, by its ending (R121). -/
structure LaneOutcome where
  outcome : SlotOutcome
  startFrame : DWord
  endFrame : DWord
  driven : Nat
  leftUnknown : Nat
  deriving DecidableEq, Repr

/-- R121's table. -/
def Lane.outcome (l : Lane) : LaneOutcome :=
  let first := l.startFrame.getD 0
  match l.ending with
  | .none => ⟨.done, 0, 0, 0, 0⟩
  | .done =>
    if l.length = 0 then ⟨.done, 0, 0, 0, 0⟩
    else ⟨.done, first, first + BitVec.ofNat 32 l.length - 1, l.completed, 0⟩
  | .brokenByRails => ⟨.brokenByRails, first, first + BitVec.ofNat 32 l.index, l.completed, l.claimed - l.completed⟩
  | .brokenBySegment k =>
    ⟨.brokenBySegment k, first, first + BitVec.ofNat 32 l.index, l.completed, l.claimed - l.completed⟩
  | .railsDown cause => ⟨.railsDown cause, 0, 0, 0, 0⟩
  | .segmentFault k => ⟨.segmentFault k, 0, 0, 0, 0⟩

/-- What a lane's close hands the board writer (R121). -/
def laneFinish (n : Fin 32) (l : Lane) (tag : Word) : Finish :=
  { slot := l.slot, seen := l.seen, outcome := l.outcome.outcome, flags := { l.flags with withdrawLate := l.withdrawLate },
    mode := some l.mode, lane := some n, startFrame := l.outcome.startFrame, endFrame := l.outcome.endFrame,
    driven := l.outcome.driven, leftUnknown := l.outcome.leftUnknown, score := l.score, tag := tag }

/-- What a close does to the ledger for one driven tile: settle-and-apply for DONE, the break-mark with the kept q for BROKEN,
nothing for a released lane (R120). -/
def closeTile (c : Setup) (now : Nat) (n : Fin 32) (l : Lane) (tile : Nat × Nat × Nat) (m : Memory) : Memory :=
  match l.ending with
  | .done => settleAndApply c now (l.mode == .clean && tileInside l.rect tile.1 tile.2.1) n tile.1 tile.2.1 m
  | .brokenByRails => breakMark c now n tile.1 tile.2.1 tile.2.2 m
  | .brokenBySegment _ => breakMark c now n tile.1 tile.2.1 tile.2.2 m
  | .none => m
  | .railsDown _ => m
  | .segmentFault _ => m

/-- A lane enters CLOSING with an ending and with the tiles that its close has to carry into the ledger (R111, R120). -/
def enterClosing (n : Fin 32) (ending : Ending) (tiles : List (Nat × Nat × Nat)) (s : State) : State :=
  setLane n { s.lane n with state := .closing, ending := ending, toClose := tiles } { s with closing := s.closing ++ [n] }

/-- The next piece of a CLOSING lane's close: the first tile left, with which its kept q is released (R124); after the last
tile, the outcome (R120, steps 1 and 2). Step 3 is the lane's return, when the board writer writes FINISHED. -/
def closeStep (n : Fin 32) (s : State) : State :=
  let l := s.lane n
  match l.toClose with
  | tile :: rest => setLane n { l with toClose := rest } { s with dram := closeTile s.cfg s.tick n l tile s.dram }
  | [] => handRequest (.finish (laneFinish n l (s.intake l.slot).tag)) { s with closing := s.closing.filter (· != n) }

/-- The closes in progress go on by one tile or one outcome. That the lanes' closes go one after another, in the order in which
the lanes entered CLOSING, is a DESIGN CHOICE (notes/assumptions/28.md): R120 orders the tiles of one lane only. -/
def closeTick (s : State) : State :=
  match s.closing with
  | n :: _ => closeStep n s
  | [] => s

/-! ## Fault steps (R123 to R125) -/

/-- A fault as the frame engine takes it: of the rails, or of one segment. -/
inductive FaultSource where
  | rails (cause : RailCause)
  | segment (k : Fin 4)
  deriving DecidableEq, Repr

/-- The lanes a fault concerns: every lane, or those whose clipped rectangle touches the segment (R123). -/
def FaultSource.concerns (c : Setup) (src : FaultSource) (l : Lane) : Bool :=
  match src with
  | .rails _ => true
  | .segment k => touches c k.val l.rect

/-- The ending of a break (R124). -/
def FaultSource.breakEnding : FaultSource → Ending
  | .rails _ => .brokenByRails
  | .segment k => .brokenBySegment k

/-- The ending of a release: the cause of the rail fault, or the lowest-numbered segment FAULTED or TRAINING that the
clipped rectangle touches at the step (R125). -/
def FaultSource.releaseEnding (src : FaultSource) (r : Rect) (s : State) : Ending :=
  match src with
  | .rails cause => .railsDown cause
  | .segment k => .segmentFault ((lowestBadSegment r s).getD k)

/-- The number of a tile's pixels that a lane still owns: q of R20. -/
def ownedInTile (c : Setup) (n : Fin 32) (r : Rect) (tile : Nat × Nat) (m : Memory) : Nat :=
  (rectPixels c (tileRect tile.1 tile.2) m).countP fun p => r.contains p.1 p.2.1 && pixelOwnedBy p.2.2 n

/-- The fault step of a DRIVING lane (R124). -/
def breakLane (src : FaultSource) (n : Fin 32) (s : State) : State :=
  let l := s.lane n
  let kept := (drivenTiles s.cfg n l.rect s.dram).map fun tile => (tile.1, tile.2, ownedInTile s.cfg n l.rect tile s.dram)
  let m := rewriteRect s.cfg l.rect (fun _ _ w => if pixelOwnedBy w n then pixelBreak w else w) s.dram
  enterClosing n src.breakEnding kept { s with dram := m }

/-- The fetch of a lane ends with the lane's release. The pass moves on to the next request, or ends in HALTING (R93,
R76). -/
def stopFetch (n : Fin 32) (s : State) : State :=
  match s.admission.fetch with
  | some f =>
    if f.lane = n then
      { s with admission := { s.admission with fetch := none, passActive := s.port.partState == .ready } }
    else s
  | none => s

/-- The fault step of a LOADING or ARMED lane (R125). -/
def releaseLane (src : FaultSource) (n : Fin 32) (s : State) : State :=
  let l := s.lane n
  let ending := src.releaseEnding l.rect s
  let m := rewriteRect s.cfg l.rect (fun _ _ w => if pixelOwnedBy w n then pixelRelease w else w) s.dram
  stopFetch n (enterClosing n ending [] { s with dram := m })

/-- One lane's fault step, by the lane's state (R123). -/
def faultStep (src : FaultSource) (n : Fin 32) (s : State) : State :=
  match (s.lane n).state with
  | .loading => releaseLane src n s
  | .armed => releaseLane src n s
  | .driving => breakLane src n s
  | .free => s
  | .closing => s

/-- The lanes a fault takes to CLOSING. -/
def faultedLanes (src : FaultSource) (s : State) : List (Fin 32) :=
  (List.finRange 32).filter fun n =>
    src.concerns s.cfg (s.lane n) &&
      match (s.lane n).state with
      | .loading => true
      | .armed => true
      | .driving => true
      | .free => false
      | .closing => false

/-- A fault taken for every lane it concerns in one step (R123). Their closes follow as the part's own work (R120). -/
def takeFault (src : FaultSource) (s : State) : State := (faultedLanes src s).foldl (fun s n => faultStep src n s) s

end Sys2Proof.Machine
end

