-- ==== Sys2Proof/Machine/Rails.lean ====
section
/-! DEFINITION. The rail supervisor (chapter 9): sequencing, faults, the idle hold, demands, the wake input, and the
commands of its lines and timers. -/

namespace Sys2Proof.Machine

/-! ## What the rails hand on -/

/-- The tally publishes: the four counters, then the stamp, which is the frame number now (R172). That the board writer takes
them as one request, so that two equal stamps stand around counters of one publication, is DEDUCED
(notes/assumptions/30.md). -/
def tallyPublish (s : State) : State :=
  handHeader (.tally (s.tally.counters.map TallyCounter.value) s.frame.number)
    { s with tally := { s.tally with stamp := s.frame.number } }

/-- The frame in progress ends without a boundary: every link abandons it (R135). -/
def abandonFrames (s : State) : State := { s with links := s.links.map fun l => { l with frame := .none } }

/-- The idle condition of R154. -/
def Rails.idle (r : Rails) : Bool := r.state == .on && !r.lanesBusy && !r.training

/-- The idle-hold timer starts from its full period when the idle condition becomes true and stops when it becomes false
(R154). -/
def Rails.judgeIdle (r : Rails) : Rails :=
  if r.idle then { r with idleTimer := .running }
  else if r.idleTimer = .running then { r with idleTimer := .stopped }
  else r

/-- The supervisor judges the idle condition. -/
def judgeIdle (s : State) : State := { s with rails := s.rails.judgeIdle }

/-! ## Transitions of R145 -/

/-- Entry to RISING (R146): the frame timer starts, a held demand is cleared, the step 1 delay begins. -/
def enterRising (s : State) : State :=
  handHeader (.railState .rising)
    { s with rails := { s.rails with state := .rising, step := 0, stepTimer := true, riseTimer := false,
                                     demandHeld := false },
             frame := { s.frame with timer := true } }

/-- The next enable is asserted; after the fifth the rise timer starts (R146). -/
def assertNext (s : State) : State :=
  { s with rails := { s.rails with step := s.rails.step + 1, stepTimer := decide (s.rails.step + 1 < 5),
                                   riseTimer := decide (5 ≤ s.rails.step + 1) } }

/-- Entry to ON (R148). -/
def enterOn (s : State) : State :=
  let s := handHeader (.railState .on) { s with rails := { s.rails with state := .on, riseTimer := false } }
  judgeIdle (triggerPass s)

/-- Entry to FALLING (R153): the frame timer stops, the links abandon the frame, and a loss being blanked is abandoned
(R149). The idle-hold timer that has just expired is stopped: 9.7's table of a fall shows it so, and R144 does not say where
its value "expired" ends (DEDUCED, notes/assumptions/31.md). -/
def enterFalling (s : State) : State :=
  abandonFrames (handHeader (.railState .falling)
    { s with rails := { s.rails with state := .falling, step := 5, stepTimer := true, blankingTimer := false,
                                     idleTimer := .stopped },
             frame := { s.frame with timer := false } })

/-- A link is TRAINING. -/
def State.anyTraining (s : State) : Bool := s.links.toList.any fun l => l.state == .training

/-- Arrival in OFF (R153): a pass, a tally publication, and a demand from each TRAINING link. R153 gives the pass and the
publication no order: that the publication (R172) is handed here, in the arrival's own step, before the pass examines anything,
so that this pass's PROMOTIONS and CONFLICT_DEFERRALS never show in it, is a DESIGN CHOICE (notes/assumptions/40.md). -/
def enterOff (s : State) : State :=
  let s := handHeader (.railState .off) { s with rails := { s.rails with state := .off, step := 0, stepTimer := false } }
  let s := tallyPublish (triggerPass s)
  { s with rails := { s.rails with demandHeld := s.rails.demandHeld || s.anyTraining } }

/-- The next enable is released in reverse order; after the last the rails are OFF (R153). -/
def releaseNext (s : State) : State :=
  if s.rails.step ≤ 1 then enterOff s else { s with rails := { s.rails with step := s.rails.step - 1 } }

/-- Entry to FAULT (R151): the enables and the timers, the cause and then the state to the header, the fault to the frame
engine in the same step, and the notice cause. R151 gives its steps 2, 3 and 4 no order among them: that the header's cause
and state (step 2) wait at the board writer before anything that the closes of the broken and released lanes (step 3) hand is a
DESIGN CHOICE (notes/assumptions/6.md). -/
def enterFault (cause : RailCause) (s : State) : State :=
  let s := { s with rails := { s.rails with state := .fault, step := 0, stepTimer := false, riseTimer := false,
                                            blankingTimer := false, idleTimer := .stopped, cause := cause },
                    frame := { s.frame with timer := false },
                    notice := { s.notice with railFault := true } }
  let s := handHeader (.railState .fault) (handHeader (.railCause cause) s)
  takeFault (.rails cause) (abandonFrames s)

/-! ## What happens at once -/

/-- The step delay with index `i`, counted from 0. -/
def stepDelay (c : Setup) (i : Nat) : Nat := c.stepDelays.getD i 0

/-- The transition that needs no time to pass, where there is one: an alert watched in RISING or ON (R150), a step whose
delay is 0 (R146), power-good found asserted while the rise timer runs (R148), an idle hold of 0 (R154), a held demand in
OFF (R153, R155). -/
def railImmediate (s : State) : Option State :=
  match s.rails.state with
  | .rising =>
    if s.pins.alert then some (enterFault .supplyAlert s)
    else if s.rails.stepTimer && stepDelay s.cfg s.rails.step == 0 then some (assertNext s)
    else if s.rails.riseTimer && s.pins.powerGood then some (enterOn s)
    else none
  | .on =>
    if s.pins.alert then some (enterFault .supplyAlert s)
    else if s.rails.idleTimer == .running && s.cfg.idleHold == 0 then some (enterFalling s)
    else none
  | .falling =>
    if s.rails.stepTimer && stepDelay s.cfg (s.rails.step - 1) == 0 then some (releaseNext s) else none
  | .off => if s.rails.demandHeld then some (enterRising s) else none
  | .fault => none

/-- The rails make the transitions that need no time to pass, `n` at most. -/
def railSettle : Nat → State → State
  | 0, s => s
  | n + 1, s =>
    match railImmediate s with
    | some t => railSettle n t
    | none => s

/-- More than the longest run of such transitions: a fall, a rise and a second fall, all of zero delays, take 18. -/
def settleBound : Nat := 24

/-- The rails after everything that happens at once. -/
def settleRails (s : State) : State := railSettle settleBound s

/-! ## Notices and demands from other blocks -/

/-- The lane table tells its neighbours of a change in the number of lanes out of FREE: the header's count and the rail
supervisor (R112, R154). -/
def noteLanes (s : State) : State :=
  let s := handHeader (.lanesInUse s.lanesOut) s
  settleRails (judgeIdle { s with rails := { s.rails with lanesBusy := decide (0 < s.lanesOut) } })

/-- The links tell the rail supervisor whether any is TRAINING (R141, R154). -/
def noteTraining (s : State) : State :=
  settleRails (judgeIdle { s with rails := { s.rails with training := s.anyTraining } })

/-- A rise demand (R155). -/
def riseDemand (s : State) : State :=
  match s.rails.state with
  | .off => settleRails (enterRising s)
  | .falling => { s with rails := { s.rails with demandHeld := true } }
  | .fault => { s with rails := { s.rails with demandHeld := true } }
  | .rising => s
  | .on => s

/-! ## Commands of the sequencing timers and of power-good -/

/-- RISE_STEP (R146). -/
def execRiseStep (s : State) : Host.Outcome State Fault Refusal :=
  if s.rails.state = .rising ∧ s.rails.stepTimer then .next (settleRails (assertNext s)) else .next s

/-- POWER_GOOD_ASSERTED (R148, R149): the rise ends in ON, or a loss being blanked was a glitch. -/
def execPowerGoodAsserted (s : State) : Host.Outcome State Fault Refusal :=
  let s := { s with pins := { s.pins with powerGood := true } }
  if s.rails.state = .on ∧ s.rails.blankingTimer then
    .next (tallyEvent .railGlitches 1 { s with rails := { s.rails with blankingTimer := false } })
  else .next (settleRails s)

/-- POWER_GOOD_RELEASED (R149): watched in ON, where it starts the blanking timer. -/
def execPowerGoodReleased (s : State) : Host.Outcome State Fault Refusal :=
  let s := { s with pins := { s.pins with powerGood := false } }
  if s.rails.state = .on then .next { s with rails := { s.rails with blankingTimer := true } } else .next s

/-- RISE_TIMEOUT (R148). -/
def execRiseTimeout (s : State) : Host.Outcome State Fault Refusal :=
  if s.rails.state = .rising ∧ s.rails.riseTimer then .next (enterFault .riseTimeout s) else .next s

/-- BLANKING_EXPIRY (R149). -/
def execBlankingExpiry (s : State) : Host.Outcome State Fault Refusal :=
  if s.rails.state = .on ∧ s.rails.blankingTimer then .next (enterFault .railDrop s) else .next s

/-- SUPPLY_ALERT (R150): the line takes its level; asserted, it faults the rails in RISING or ON at once. -/
def execSupplyAlert (asserted : Bool) (s : State) : Host.Outcome State Fault Refusal :=
  .next (settleRails { s with pins := { s.pins with alert := asserted } })

/-- IDLE_HOLD_EXPIRY (R154). -/
def execIdleHoldExpiry (s : State) : Host.Outcome State Fault Refusal :=
  if s.rails.state = .on ∧ s.rails.idleTimer = .running then .next (settleRails (enterFalling s)) else .next s

/-- FALL_STEP (R153). -/
def execFallStep (s : State) : Host.Outcome State Fault Refusal :=
  if s.rails.state = .falling ∧ s.rails.stepTimer then .next (settleRails (releaseNext s)) else .next s

/-! ## The wake input (R156) -/

/-- WAKE_INPUT_LOW: the qualifier samples the line once START has supplied a setup. -/
def execWakeInputLow (s : State) : Host.Outcome State Fault Refusal :=
  let s := { s with pins := { s.pins with wakeLow := true } }
  if s.configured ∧ s.rails.wake = .idle then .next { s with rails := { s.rails with wake := .measuring } } else .next s

/-- WAKE_INPUT_HIGH. -/
def execWakeInputHigh (s : State) : Host.Outcome State Fault Refusal :=
  .next { s with pins := { s.pins with wakeLow := false }, rails := { s.rails with wake := .idle } }

/-- A wake event that acts: a scan is triggered, and the rails rise, or their idle hold restarts, or a demand is held
(R156). -/
def wakeActs (s : State) : State :=
  let s := triggerScan s
  match s.rails.state with
  | .off => settleRails (enterRising s)
  | .falling => { s with rails := { s.rails with demandHeld := true } }
  | .rising => s
  | .on => settleRails (judgeIdle s)
  | .fault => s

/-- WAKE_EVENT: the input has been low for the wake-qualify time. It acts in READY with the rails not in FAULT. -/
def execWakeEvent (s : State) : Host.Outcome State Fault Refusal :=
  if s.rails.wake = .measuring then
    let s := { s with rails := { s.rails with wake := .spent } }
    if s.port.partState = .ready ∧ s.rails.state ≠ .fault then .next (wakeActs s) else .next s
  else .next s

end Sys2Proof.Machine
end

