-- ==== Sys2Proof/Machine/BoardWriter.lean ====
section
/-! DEFINITION. The board writer (chapter 4.4): the writes it makes, a lane's return to FREE, and the commands FINISH,
RETURN_TO_FREE and BOARD_WRITE. -/

namespace Sys2Proof.Machine

/-- The byte address of a slot (R57). -/
def slotAddress (c : Setup) (slot : Fin 64) : Nat := c.boardBase + Config.headerBytes + Config.slotBytes * slot.val

/-- The byte address of a slot's part half (R57). -/
def partHalf (c : Setup) (slot : Fin 64) : Nat := slotAddress c slot + 32

/-- A header field written (R71). -/
def writeHeader (c : Setup) (w : HeaderWrite) (m : Memory) : Memory := m.write (c.boardBase + w.bytes.1) w.bytes.2

/-- The word of seen count and status, written whole (R59). -/
def writeStatus (c : Setup) (slot : Fin 64) (seen : Byte) (status : SlotStatus) (m : Memory) : Memory :=
  m.write (partHalf c slot) (statusBytes seen status)

/-- The RUNNING write: effective mode and lane number, then the status word (R67). -/
def writeRunning (c : Setup) (slot : Fin 64) (seen : Byte) (mode : Mode) (lane : Fin 32) (m : Memory) : Memory :=
  writeStatus c slot seen .running (m.write (partHalf c slot + 6) [byteOf mode.code, byteOf lane.val])

/-- Words of outcome fields in a part half (R68, first write). -/
def outcomeWords : Nat := 13

/-- The first two writes of a finish of which `written` words of outcome fields stand already: the others, then the status
word (R68). -/
def writeFinish (c : Setup) (written : Nat) (f : Finish) (m : Memory) : Memory :=
  writeStatus c f.slot f.seen .finished
    (m.write (partHalf c f.slot + 2 + 2 * written) (f.outcomeBytes.drop (2 * written)))

/-- The intake copy is released after the second write of its finish (R68). A copy that a newer take has made since is
that posting's, and stays. -/
def releaseIntake (slot : Fin 64) (seen : Byte) (s : State) : State :=
  if (s.slot slot).status = .finished ∧ (s.slot slot).seen = seen then setSlot slot { s.slot slot with intake := none } s
  else s

/-- The third write of a finish: the completion count, which the notice logic follows (R68, R69, R174). -/
def countFinish (s : State) : State :=
  let n := s.board.completion + 1
  { s with board := { s.board with completion := n, written := 0 }, dram := s.dram.write (s.cfg.boardBase + 32) (dwordBytes n),
           notice := { s.notice with kept := n.setWidth 16 } }

/-- HALTING ends when the flush has ended and no lane is out of FREE (R164). -/
def settleHalt (s : State) : State :=
  if s.port.partState = .halting ∧ !s.admission.flushDue ∧ s.lanesOut = 0 then
    setPartState .halted { s with notice := { s.notice with halted := true } }
  else s

/-- Step 3 of a close, with what follows it (R120, R112): in one step the slot's status as the board writer holds it
becomes FINISHED, the lane becomes FREE and its bank's count falls; a pass is triggered and the neighbours are told. That a load
which the count's fall starts hands its bank first, then the number of lanes and then a HALTED that follows, is a DESIGN CHOICE
(notes/assumptions/6.md): R38, R67 and R112 give these no order. That the rail supervisor acts in this step, so that with an idle
hold of 0 the rails are FALLING before the pass examines a request, is a DESIGN CHOICE too (notes/assumptions/36.md): R112 gives
the pass and the supervisor's notice none. -/
def returnLane (n : Fin 32) (s : State) : State :=
  let l := s.lane n
  let s := setSlot l.slot { s.slot l.slot with seen := l.seen, status := .finished } s
  let s := bankReleased l.bank (setLane n { l with state := .free } s)
  settleHalt (noteLanes (triggerPass s))

/-- The first two writes of the finish at the front of the queue, from the words of it already written on, with the return of
the lane it closes (R68, R120). -/
def performFinish (f : Finish) (s : State) : State :=
  let s := { s with dram := writeFinish s.cfg s.board.written f s.dram, board := { s.board with written := 0 } }
  let s :=
    match f.lane with
    | some n => returnLane n s
    | none => s
  releaseIntake f.slot f.seen s

/-! ## A finish in progress (R68) -/

/-- The board writer writes one more word of the finish at the front of its queue: the next word of the outcome fields; after
them, for a request that no lane carries, the status word with the release of the intake copy; then the low word of the new
completion count. A lane's status word is left to RETURN_TO_FREE and FINISH, with which the lane returns (R112). -/
def boardTick (s : State) : State :=
  match s.board.queue with
  | .finish f :: rest =>
    if s.board.written < outcomeWords then
      { s with board := { s.board with written := s.board.written + 1 },
               dram := s.dram.write (partHalf s.cfg f.slot + 2 + 2 * s.board.written)
                 ((f.outcomeBytes.drop (2 * s.board.written)).take 2) }
    else if f.lane = none then performFinish f { s with board := { s.board with queue := .completion :: rest } }
    else s
  | .completion :: _ =>
    if s.board.written = 0 then
      { s with board := { s.board with written := 1 },
               dram := s.dram.write (s.cfg.boardBase + 32) ((dwordBytes (s.board.completion + 1)).take 2) }
    else s
  | _ => s

/-! ## Commands -/

/-- FINISH (R68): the board writer performs what is left of the finish at the front of its queue. -/
def execFinish (s : State) : Host.Outcome State Fault Refusal :=
  match s.board.queue with
  | .finish f :: rest => .next (countFinish (performFinish f { s with board := { s.board with queue := rest } }))
  | .completion :: rest => .next (countFinish { s with board := { s.board with queue := rest } })
  | _ => .next s

/-- RETURN_TO_FREE (R112, R120): the board writer writes what is left of the outcome fields and then the status word FINISHED
of the lane's finish at the front of its queue, and in the same step the lane returns to FREE. The completion count is still
to be written. -/
def execReturnToFree (s : State) : Host.Outcome State Fault Refusal :=
  match s.board.queue with
  | .finish f :: rest =>
    if f.lane.isSome then .next (performFinish f { s with board := { s.board with queue := .completion :: rest } })
    else .next s
  | _ => .next s

/-- BOARD_WRITE (R67): the board writer performs the WAITING, RUNNING or header write at the front of its queue. -/
def execBoardWrite (s : State) : Host.Outcome State Fault Refusal :=
  match s.board.queue with
  | .header w :: rest =>
    .next { s with board := { s.board with queue := rest }, dram := writeHeader s.cfg w s.dram }
  | .waiting slot seen :: rest =>
    .next { s with board := { s.board with queue := rest }, dram := writeStatus s.cfg slot seen .waiting s.dram }
  | .running slot seen mode lane :: rest =>
    .next { s with board := { s.board with queue := rest }, dram := writeRunning s.cfg slot seen mode lane s.dram }
  | _ => .next s

end Sys2Proof.Machine
end

