-- ==== Sys2Proof/Machine/Monitor.lean ====
section
/-! DEFINITION. The temperature monitor (chapter 3), with the sensor's commands and the half-life tick. -/

namespace Sys2Proof.Machine

/-! ## Status and temperature in use -/

/-- The status and the temperature in use that a monitor's inputs give: the first line of R49's table that applies. -/
def Monitor.decide (m : Monitor) : TempStatus × Option Int :=
  if m.overrideFlag then (.override, some m.overrideValue)
  else
    match m.lastGood with
    | none => (.none, none)
    | some t =>
      match m.lastResult with
      | some .failed => if m.stale = .running then (.held, some t) else (.invalid, none)
      | _ => (.valid, some t)

/-- The temperature the header shows: the one in use, the kept last good reading in INVALID, 0 in NONE (R54). -/
def Monitor.shown (m : Monitor) : Int :=
  match m.status with
  | .none => 0
  | .invalid => m.lastGood.getD 0
  | _ => m.inUse.getD 0

/-! ## Band selection -/

/-- The bound Bi in quarter-degrees (R52). -/
def boundQd (bounds : List Int) (i : Nat) : Int := 4 * bounds.getD i 0

/-- The raw band c(t): the largest i in 1..11 with 4 × Bi ≤ t, or 0 (R53). -/
def rawBand (bounds : List Int) (t : Int) : Nat :=
  (List.range 12).foldl (fun acc i => if 1 ≤ i ∧ boundQd bounds i ≤ t then i else acc) 0

/-- One band evaluation with hysteresis `h` (R53). -/
def nextBand (bounds : List Int) (h : Int) (band : Option Nat) (t : Int) : Nat :=
  match band with
  | none => rawBand bounds t
  | some b =>
    if b < rawBand bounds (t - h) then rawBand bounds (t - h)
    else if rawBand bounds (t + h) < b then rawBand bounds (t + h)
    else b

/-- The band is evaluated with the temperature in use, and a band change goes to the board writer and the bank unit
(R53, R54). -/
def evaluateBand (s : State) : State :=
  match s.monitor.inUse with
  | none => s
  | some t =>
    let b := nextBand s.banks.bounds s.cfg.hysteresis s.monitor.band t
    if s.monitor.band = some b then s
    else requestLoad b (handHeader (.band (some b)) { s with monitor := { s.monitor with band := some b } })

/-- One of R49's inputs has changed to what `m` holds: the status is decided afresh; an entry to INVALID sets TEMPERATURE
(R50); the board writer is handed the temperature and the status where they change (R54); a new temperature in use is
evaluated for its band (R53); and leaving NONE triggers a pass (R54). -/
def updateMonitor (m : Monitor) (s : State) : State :=
  let old := s.monitor
  let new := { m with status := m.decide.1, inUse := m.decide.2 }
  let s := { s with monitor := new }
  let s :=
    if new.status = .invalid ∧ old.status ≠ .invalid then { s with notice := { s.notice with temperature := true } } else s
  let s := if new.shown = old.shown then s else handHeader (.temperature new.shown) s
  let s := if new.status = old.status then s else handHeader (.tempStatus new.status) s
  let s := if new.inUse = old.inUse then s else evaluateBand s
  if old.status = .none ∧ new.status ≠ .none then triggerPass s else s

/-! ## The host override (R51) -/

/-- The override value word of the header's host half as it stands now (10.7): what an override read reads first. -/
def State.overrideWord (s : State) : Word := s.dram.readWord s.cfg.boardBase

/-- An override read comes to its end: of a read that has found `value` in the value word, the flag word is read as it stands
now, and the two replace the monitor's copy (R51; 10.7). That the copy keeps its old value until the flag word is read too, so
that it is always replaced whole, is DEDUCED from R51's third case (notes/assumptions/39.md). -/
def overrideRead (value : Word) (s : State) : State :=
  let flag := (s.dram.readWord (s.cfg.boardBase + 2)).getLsbD 0
  updateMonitor { s.monitor with overrideFlag := flag, overrideValue := value.toInt } s

/-! ## Sensor reads -/

/-- The address byte: the 7-bit bus address and the direction bit, which is 1 for a read (R47). -/
def addressByte (c : Setup) (read : Bool) : Byte := BitVec.ofNat 7 c.sensorAddress ++ BitVec.ofBool read

/-- Steps 1 to 7 of the transaction of R47, each as it goes when the sensor answers. -/
def transactionSteps (c : Setup) : List I2cEvent :=
  [.start, .sent (addressByte c false) true, .sent c.sensorRegister true, .repeatedStart, .sent (addressByte c true) true,
    .received true, .received false]

/-- The events of a transaction that one byte left unacknowledged ends with a stop condition there (R47). -/
def unackedEvents (c : Setup) : UnackedByte → List I2cEvent
  | .addressWrite => (transactionSteps c).take 1 ++ [.sent (addressByte c false) false, .stop]
  | .registerIndex => (transactionSteps c).take 2 ++ [.sent c.sensorRegister false, .stop]
  | .addressRead => (transactionSteps c).take 4 ++ [.sent (addressByte c true) false, .stop]

/-- A sensor read begins, with the override value word (R46, R51). The bus is still idle. -/
def beginRead (s : State) : State :=
  { s with monitor := { s.monitor with reading := true, held := some s.overrideWord, bus := [] } }

/-- The start of the sensor read in progress goes on: the override flag word is read, and then the sensor is addressed, with
the start condition (R46, R47, R51). -/
def readTick (s : State) : State :=
  match s.monitor.held with
  | some value =>
    let s := overrideRead value s
    { s with monitor := { s.monitor with held := none, bus := [.start] } }
  | none => s

/-- A sensor read completes as FAILED (R47, R48). -/
def readFailed (bus : List I2cEvent) (s : State) : State :=
  updateMonitor { s.monitor with reading := false, bus := bus, lastResult := some .failed } s

/-- The conversion of R48: t = floor(raw / 64). -/
def toQuarterDegrees (raw : Word) : Int := raw.toInt / 64

/-- A sensor read that reached step 8 completes with its raw value (R48). -/
def readData (raw : Word) (s : State) : State :=
  let bus := transactionSteps s.cfg ++ [.stop]
  let t := toQuarterDegrees raw
  if -160 ≤ t ∧ t ≤ 340 then
    updateMonitor { s.monitor with reading := false, bus := bus, lastGood := some t, lastResult := some .good,
                                   stale := .running } s
  else readFailed bus s

/-! ## Commands -/

/-- SENSOR_READ (R46): the poll timer expires and restarts, and a read begins. The timer does not run outside READY, HALTING
and HALTED. -/
def execSensorRead (s : State) : Host.Outcome State Fault Refusal :=
  if s.monitor.pollTimer then .next (beginRead s) else .next s

/-- SENSOR_READ_COMPLETE (R48), after what is left of the read's start. -/
def execSensorReadComplete (result : SensorResult) (s : State) : Host.Outcome State Fault Refusal :=
  if s.monitor.reading then
    match result with
    | .data raw => .next (readData raw (readTick s))
    | .noAck which => .next (readFailed (unackedEvents s.cfg which) (readTick s))
  else .next s

/-- TRANSACTION_TIMEOUT (R47), after what is left of the read's start: the part ends the transaction with a stop condition, and
the read completes as FAILED. -/
def execTransactionTimeout (reached : Nat) (s : State) : Host.Outcome State Fault Refusal :=
  if s.monitor.reading then .next (readFailed ((transactionSteps s.cfg).take reached ++ [.stop]) (readTick s)) else .next s

/-- STALE_TIMER_EXPIRY (R50). -/
def execStaleTimerExpiry (s : State) : Host.Outcome State Fault Refusal :=
  if s.monitor.stale = .running then .next (updateMonitor { s.monitor with stale := .expired } s) else .next s

/-- HALF_LIFE_EXPIRY (R56, R12): D increments, wrapping, and the timer restarts. -/
def execHalfLifeExpiry (s : State) : Host.Outcome State Fault Refusal :=
  if s.monitor.halfLifeTimer then .next { s with monitor := { s.monitor with ticks := s.monitor.ticks + 1 } } else .next s

end Sys2Proof.Machine
end

