-- ==== Sys2Proof/Machine/Scanner.lean ====
section
/-! DEFINITION. The board scanner (chapter 4.2, 4.3) and the removals from the pending list that it, a deadline and HALT
make (chapter 6.4 to 6.6), with SCAN, DEADLINE_EXPIRY and HALT_FLUSH. -/

namespace Sys2Proof.Machine

/-! ## The pending list (R96, R97) -/

/-- The pending list replaced, and its length handed to the board writer (R75). -/
def setWaiting (list : List Waiting) (s : State) : State :=
  handHeader (.pendingCount list.length) { s with admission := { s.admission with list := list } }

/-- The examination in progress ends. In HALTING its pass ends with it (R76). -/
def endExam (s : State) : State :=
  { s with admission := { s.admission with
      exam := none, passActive := s.admission.passActive && s.port.partState == .ready } }

/-- An examination of this slot's request ends with no further effect on it (R77, R106, R107). -/
def dropExam (slot : Fin 64) (s : State) : State :=
  match s.admission.exam with
  | some x => if x.slot = slot then endExam s else s
  | none => s

/-- The entry of a slot leaves the list, with its examination if it is under one; the others keep their order (R96, R77). -/
def removeWaiting (slot : Fin 64) (s : State) : State :=
  dropExam slot (setWaiting (s.admission.list.filter fun e => e.slot != slot) s)

/-- A pending request is finished outside an examination: flags and score from its examination record, effective mode NONE
(R78, R95). -/
def finishWaiting (e : Waiting) (outcome : SlotOutcome) (s : State) : State :=
  handFinish (Finish.refusal e.slot (s.slot e.slot).seen (s.intake e.slot).tag outcome e.flags none e.score)
    (removeWaiting e.slot s)

/-- The entry of a slot. -/
def State.waitingFor (s : State) (slot : Fin 64) : Option Waiting := s.admission.list.find? fun e => e.slot == slot

/-- A new entry: no examination yet, and the deadline its wait limit gives (R78, R105). -/
def Waiting.new (slot : Fin 64) (i : Intake) : Waiting :=
  { slot := slot, deadline := if i.waitLimit = 0 then none else some i.waitLimit, examined := false, clip := none,
    flags := Flags.none, mode := none, score := 0 }

/-! ## Validation of a posting (R64) -/

/-- The image's last byte, computed without overflow from the unclipped size (R64). -/
def imageEnd (i : Intake) : Nat := i.image + i.pitch * (i.h - 1) + (i.w + 1) / 2 - 1

/-- Both ends of the footprint lie in the image region, at an even address (R64). -/
def imageInside (c : Setup) (i : Intake) : Bool :=
  i.image % 2 == 0 && decide (c.imageBase ≤ i.image) && decide (i.image ≤ c.imageBase + c.imageSize - 1) &&
    decide (c.imageBase ≤ imageEnd i) && decide (imageEnd i ≤ c.imageBase + c.imageSize - 1)

/-- The first check that fails, in R64's order. -/
def malformedBy (c : Setup) (i : Intake) : Option Malformed :=
  if 3 < i.mode then some .badMode
  else if 1 < i.ghostPolicy ∨ 1 < i.conflictPolicy then some .badPolicy
  else if i.w = 0 ∨ i.h = 0 then some .zeroSize
  else if i.pitch < (i.w + 1) / 2 then some .badPitch
  else if imageInside c i then none
  else some .badImage

/-! ## The take (R63) -/

/-- A request that its take finishes (R63, R95). -/
def finishAtTake (slot : Fin 64) (i : Intake) (outcome : SlotOutcome) (s : State) : State :=
  handFinish (Finish.refusal slot i.postCount i.tag outcome Flags.none none 0) s

/-- A request that its take appends at the end of the pending list, WAITING (R63, R97). That the WAITING write is handed before
the new pending count is a DESIGN CHOICE (notes/assumptions/6.md): R67 gives the two no order. -/
def appendWaiting (slot : Fin 64) (i : Intake) (s : State) : State :=
  let s := setSlot slot { s.slot slot with seen := i.postCount, status := .waiting } s
  setWaiting (s.admission.list ++ [Waiting.new slot i]) (handRequest (.waiting slot i.postCount) s)

/-- Words of a host half (R57). -/
def halfWords : Nat := 16

/-- The take of a new posting, by the steps of R63: the rest of the copy of which `words` have been read, the mark at take, the
validation, and the append in READY or the finish HALTED in HALTING and HALTED. -/
def takePosting (slot : Fin 64) (words : List Word) (s : State) : State :=
  let i := Intake.decode
    (bytesOf words ++ s.dram.readBytes (slotAddress s.cfg slot + 2 * words.length) (2 * (halfWords - words.length)))
  let s := setSlot slot { s.slot slot with intake := some i } s
  if i.mark = i.postCount then finishAtTake slot i .withdrawnAtTake s
  else
    match malformedBy s.cfg i with
    | some why => finishAtTake slot i (.malformed why) s
    | none => if s.port.partState = .ready then appendWaiting slot i s else finishAtTake slot i .halted s

/-! ## The visit of a slot (R62, R65) -/

/-- The lane that carries a slot. -/
def State.laneOf (s : State) (slot : Fin 64) : Option (Fin 32) :=
  (List.finRange 32).find? fun n => (s.lane n).state != .free && (s.lane n).slot == slot

/-- WITHDRAW_LATE reaches the lane of a RUNNING slot. It is recorded up to the moment the lane's close hands the outcome, and
dropped after it (R65, R122). -/
def withdrawLate (slot : Fin 64) (s : State) : State :=
  match s.laneOf slot with
  | some n =>
    if (s.lane n).state = .closing ∧ !s.closing.contains n then s else setLane n { s.lane n with withdrawLate := true } s
  | none => s

/-- A withdraw reaches the admission unit (R107): the entry leaves the list WITHDRAWN, and an examination of it ends; where it
has been claimed since, the withdraw is late; where it has been finished since, it is dropped. -/
def withdrawWaiting (slot : Fin 64) (s : State) : State :=
  match s.waitingFor slot with
  | some e => finishWaiting e .withdrawnWhileWaiting s
  | none => withdrawLate slot s

/-- What one visit of a scan leaves: the state, and what the scan still has to do. -/
structure Visit where
  state : State
  scan : Scan
  deriving DecidableEq, Repr

/-- The slot a scan stands at. -/
def Scan.slot (k : Scan) : Fin 64 := k.first + Fin.ofNat 64 k.visited

/-- What a visit finds at its slot. -/
inductive Found where
  | nothing
  | posting
  | withdraw
  deriving DecidableEq, Repr

/-- R62's table, on the word of the post count and the mark and on the slot as the board writer holds it. -/
def State.found (s : State) (slot : Fin 64) : Found :=
  let at_ := slotAddress s.cfg slot
  match (s.slot slot).status with
  | .idle | .finished => if s.dram.read at_ = (s.slot slot).seen then .nothing else .posting
  | .waiting | .running => if s.dram.read (at_ + 1) = (s.slot slot).seen then .withdraw else .nothing

/-- The scan begins the copy of a take with the word it has just read, and the cursor becomes the next slot (R62, R63). -/
def beginCopy (k : Scan) (s : State) : Visit :=
  ⟨{ s with board := { s.board with cursor := k.slot + 1 } },
    { k with copy := some [s.dram.readWord (slotAddress s.cfg k.slot)] }⟩

/-- A withdraw found at the slot is handed on by the slot's status (R65, R107), and the scan stands at the next slot. Of a
request finished since it was found, it is dropped. -/
def handWithdraw (k : Scan) (s : State) : Visit :=
  let t := match (s.slot k.slot).status with
    | .waiting => withdrawWaiting k.slot s
    | .running => withdrawLate k.slot s
    | .idle | .finished => s
  ⟨t, { k with visited := k.visited + 1,
               changed := k.changed || decide (t.admission.list.length ≠ s.admission.list.length) }⟩

/-- A visit begins, by R62's table: a new posting begins the copy of its take; a withdraw is handed on at once; any other slot
is passed over. The scan stands at the next slot unless a copy has begun. -/
def beginVisit (k : Scan) (s : State) : Visit :=
  match s.found k.slot with
  | .nothing => ⟨s, { k with visited := k.visited + 1 }⟩
  | .posting => beginCopy k s
  | .withdraw => handWithdraw k s

/-- The take of the slot being visited is carried to its end, of which `words` have been copied (R63). -/
def endTake (k : Scan) (words : List Word) (s : State) : Visit :=
  let t := takePosting k.slot words s
  ⟨t, { k with visited := k.visited + 1, copy := none,
               changed := k.changed || decide (t.admission.list.length ≠ s.admission.list.length) }⟩

/-- The visit of one slot, or what is left of it: of a scan that HALT has found, the take or the withdraw found. -/
def endVisit (k : Scan) (s : State) : Visit :=
  match k.copy with
  | some words => endTake k words s
  | none =>
    let v := if k.ending then handWithdraw k s else beginVisit k s
    match v.scan.copy with
    | some words => endTake v.scan words v.state
    | none => v

/-- The scan in progress ends; a pass is triggered if it appended or withdrew a request, and the further scan that a trigger
meanwhile has caused starts (R66). -/
def endScan (s : State) : State :=
  match s.board.scan with
  | some k =>
    let t := { s with board := { s.board with scan := none, scanDue := false } }
    let t := if k.changed then triggerPass t else t
    if s.board.scanDue then triggerScan t else t
  | none => s

/-- The part with what a visit leaves of the scan. -/
def Visit.noted (v : Visit) : State := { v.state with board := { v.state.board with scan := some v.scan } }

/-- A visit is noted. With the end of its visit the scan that HALT has found at this slot ends (R66). -/
def keepScan (v : Visit) : State := if v.scan.ending ∧ v.scan.copy = none then endScan v.noted else v.noted

/-- The scan in progress reads what is left of the two override words, the value and then the flag (R66, R51). -/
def openScan (s : State) : State :=
  match s.board.scan with
  | some k =>
    if k.opened then s
    else
      let s := overrideRead (k.held.getD s.overrideWord) s
      { s with board := { s.board with scan := some { k with opened := true, held := none } } }
  | none => s

/-- The scan, which has not read both override words yet, reads the next: the value word, which it holds, and then the flag
word, with which a scan that HALT has found so ends (R66, R51). -/
def openTick (k : Scan) (s : State) : State :=
  if k.held.isNone then { s with board := { s.board with scan := some { k with held := some s.overrideWord } } }
  else if k.ending then endScan (openScan s)
  else openScan s

/-- The scan goes on by one read: of the override words first; then a slot is visited, as far as the copy of its take where it
has a new posting; or the copy reads one more word; or the take, once its copy is whole, is carried to its end (R62, R63). The
end of the walk is SCAN's, and so is the withdraw that HALT has found the scan to hand on, which can thus come between any two
entries of the flush (R108, notes/assumptions/23.md). -/
def scanTick (s : State) : State :=
  match s.board.scan with
  | none => s
  | some k =>
    if !k.opened then openTick k s
    else if 64 ≤ k.visited then s
    else
      match k.copy with
      | none => if k.ending then s else keepScan (beginVisit k s)
      | some words =>
        if words.length < halfWords then
          let at_ := slotAddress s.cfg k.slot + 2 * words.length
          { s with board := { s.board with scan := some { k with copy := some (words ++ [s.dram.readWord at_]) } } }
        else keepScan (endTake k words s)

/-- The walk of the scan in progress goes on to its last slot, `n` visits at most; a scan that HALT has found makes one. -/
def walkScan : Nat → State → State
  | 0, s => s
  | n + 1, s =>
    match s.board.scan with
    | some k =>
      if 64 ≤ k.visited then s
      else if k.ending then (endVisit k s).noted
      else walkScan n (endVisit k s).noted
    | none => s

/-! ## Commands -/

/-- SCAN (R62, R66): the scan in progress walks the board to its end. No scan starts outside READY or without a trigger. -/
def execScan (s : State) : Host.Outcome State Fault Refusal := .next (endScan (walkScan 64 (openScan s)))

/-- DEADLINE_EXPIRY (R106) of a pending request that has a deadline: TIMED_OUT with the flags and the score set so far, one
TIMEOUTS event, and a pass; an examination of the request ends at once. A request claimed or finished has left its deadline,
and the expiry does not happen. -/
def execDeadlineExpiry (slot : Fin 64) (s : State) : Host.Outcome State Fault Refusal :=
  match s.waitingFor slot with
  | some e =>
    if e.deadline.isSome then .next (triggerPass (tallyEvent .timeouts 1 (finishWaiting e .timedOut s))) else .next s
  | none => .next s

/-- The flush of HALT is in progress: it begins once any pass in progress has ended (R108). -/
def State.flushing (s : State) : Bool :=
  s.port.partState == .halting && s.admission.flushDue && !s.admission.passActive

/-- The flush in progress takes the entry at the front of the list: it leaves the list and is finished HALTED (R108). The end
of the flush is HALT_FLUSH's (notes/assumptions/2.md). -/
def flushTick (s : State) : State :=
  if s.flushing then
    match s.admission.list with
    | e :: _ => finishWaiting e .halted s
    | [] => s
  else s

/-- HALT_FLUSH (R108): the flush in progress comes to its end: every request still pending is finished HALTED, front to back;
the part may then be HALTED (R164). -/
def execHaltFlush (s : State) : Host.Outcome State Fault Refusal :=
  if s.flushing then
    let s := s.admission.list.foldl (fun s e => finishWaiting e .halted s) s
    .next (settleHalt { s with admission := { s.admission with flushDue := false } })
  else .next s

end Sys2Proof.Machine
end

