-- ==== Sys2Proof/Machine/Admission.lean ====
section
/-! DEFINITION. The admission unit (chapters 5, 6.2, 6.3): the eight steps of an examination, the claim, the fetch, and the
commands ADMISSION_PASS and FETCH_END. -/

namespace Sys2Proof.Machine

/-! ## The examination record -/

/-- The entry of a slot replaced in its place. -/
def updateWaiting (slot : Fin 64) (g : Waiting → Waiting) (s : State) : State :=
  { s with admission := { s.admission with list := s.admission.list.map fun e => if e.slot = slot then g e else e } }

/-- The record of a slot's entry. -/
def State.record (s : State) (slot : Fin 64) : Waiting := (s.waitingFor slot).getD (Waiting.new slot (s.intake slot))

/-- An examination finishes its request (R77, R95): the entry leaves the list and the finish is handed in the same step, with
the flags and the score of the record. -/
def refuse (slot : Fin 64) (outcome : SlotOutcome) (mode : Option Mode) (s : State) : State :=
  handFinish
    (Finish.refusal slot (s.slot slot).seen (s.intake slot).tag outcome (s.record slot).flags mode (s.record slot).score)
    (removeWaiting slot s)

/-! ## Step 1: clip (R79) -/

/-- The clipped rectangle, `none` where it is empty. -/
def clipRect (c : Setup) (i : Intake) : Option Rect :=
  if c.width ≤ i.x ∨ c.height ≤ i.y then none
  else some ⟨i.x, i.y, min (i.x + i.w) c.width - i.x, min (i.y + i.h) c.height - i.y⟩

/-- The clipped rectangle is smaller than the posted one. -/
def isClipped (c : Setup) (i : Intake) : Bool := decide (c.width < i.x + i.w) || decide (c.height < i.y + i.h)

/-! ## Step 2: state gates (R80, R55) -/

/-- What the gates decide, with the flags set by then. -/
inductive Gate where
  | refused (outcome : SlotOutcome)
  | held (flags : Flags)
  | passed (flags : Flags)
  deriving DecidableEq, Repr

/-- The clamp flags of the temperature in use (R55). -/
def clampFlags (bounds : List Int) (t : Int) (f : Flags) : Flags :=
  { f with coldClamp := decide (t < boundQd bounds 0), hotClamp := decide (boundQd bounds 12 ≤ t) }

/-- The conditions of R80 in table order. -/
def stateGates (r : Rect) (f : Flags) (s : State) : Gate :=
  if s.rails.state = .fault then .refused (.railsDown s.rails.cause)
  else
    match lowestBadSegment r s with
    | some k => .refused (.segmentFault k)
    | none =>
      if s.monitor.status = .invalid then .refused .noTemperature
      else if s.monitor.status = .none then .held f
      else
        let f := clampFlags s.banks.bounds (s.monitor.inUse.getD 0) f
        if s.banks.active = none then .held f else if s.rails.state = .falling then .held f else .passed f

/-! ## Step 4: mode decision (R83, R84) -/

/-- The effective mode and the flags, by the first line of R83's table that matches. -/
def decideMode (requested : Mode) (reportPolicy : Bool) (g : LedgerReading) (f : Flags) : Mode × Flags :=
  match requested with
  | .clean => (.clean, f)
  | .ink =>
    if g.anyUnknown then (.clean, { f with forcedClean := true })
    else if g.anyGhost then (.ink, { f with ghostRisk := true })
    else (.ink, f)
  | mode =>
    if g.anyUnknown then (.clean, { f with forcedClean := true })
    else if g.anyGhost then
      if reportPolicy then (mode, { f with ghostRisk := true }) else (.clean, { f with promoted := true })
    else (mode, f)

/-- The mode length of a mode in the active bank, 0 where there is none (R84, R88). -/
def activeLength (mode : Mode) (s : State) : Nat :=
  match s.banks.active with
  | some id => (s.banks.get id).modeLength mode
  | none => 0

/-! ## Step 5: order check (R98) -/

/-- An earlier request of the list whose clipped rectangle shares a pixel with `r`. -/
def heldByOrder (slot : Fin 64) (r : Rect) (s : State) : Bool :=
  (s.admission.list.takeWhile fun e => e.slot != slot).any fun e =>
    match e.clip with
    | some p => p.overlaps r
    | none => false

/-! ## Step 6: lane choice (R86) -/

/-- The lanes a requested mode chooses from, in the order it takes them: INK the reserved lanes first. -/
def lanePool (requested : Mode) : List (Fin 32) :=
  let general := (List.finRange 32).filter fun n => n.val < 28
  let reserved := (List.finRange 32).filter fun n => 28 ≤ n.val
  if requested = .ink then reserved ++ general else general

/-- The chosen lane, where the pool has a FREE one. -/
def chooseLane (requested : Mode) (s : State) : Option (Fin 32) :=
  (lanePool requested).find? fun n => (s.lane n).state == .free

/-! ## Step 7: probe (R101, R87) -/

/-- What the probe reports of the rectangle's words. -/
inductive ProbeResult where
  | conflict
  | clear (anyUnknown : Bool)
  deriving DecidableEq, Repr

/-- The ownership probe: it stops at the first owned word, and else reports whether any word is unknown. -/
def probe (r : Rect) (s : State) : ProbeResult :=
  let words := rectPixels s.cfg r s.dram
  if words.any fun p => pixelOwned p.2.2 then .conflict else .clear (words.any fun p => pixelUnknown p.2.2)

/-! ## Step 8: claim (R88, R89) -/

/-- The lane record a claim fills, with the examination record's flags and score (R88). -/
def claimedLane (slot : Fin 64) (mode : Mode) (bank : BankId) (r : Rect) (s : State) : Lane :=
  { state := .loading, slot := slot, seen := (s.slot slot).seen, mode := mode, bank := bank, rect := r, index := 0,
    length := 0, startFrame := none, withdrawLate := false, flags := (s.record slot).flags,
    score := (s.record slot).score, claimed := 0, completed := 0, ending := .none, toClose := [] }

/-- The claim itself (R88, R89): the lane, the bank's count, the list, the RUNNING write, the tally and, with the rails OFF,
the rise demand. The fetch is under way from here, at its first pixel. That a PROMOTIONS event reaches the tally before a FAULT
that the rise enters in the same step, so that a frozen counter never drops it, is a DESIGN CHOICE (notes/assumptions/35.md):
R170 allows either order. -/
def claimLane (n : Fin 32) (slot : Fin 64) (mode : Mode) (bank : BankId) (r : Rect) (s : State) : State :=
  let lane := claimedLane slot mode bank r s
  let seen := (s.slot slot).seen
  let s := bankClaimed bank (setLane n lane (removeWaiting slot s))
  let s := setSlot slot { s.slot slot with status := .running } s
  let s := handRequest (.running slot seen mode n) s
  let s := if lane.flags.promoted then tallyEvent .promotions 1 s else s
  let s := noteLanes { s with admission := { s.admission with passActive := true, fetch := some ⟨n, 0, none⟩ } }
  if s.rails.state = .off then riseDemand s else s

/-! ## The fetch (R90, R91) -/

/-- The first work of a fetch: the lane's scratch record for every tile of its rectangle is set to zeros (R90). -/
def startFetch (n : Fin 32) (s : State) : State :=
  { s with dram := (rectTiles (s.lane n).rect).foldl (fun m tile => writeScratch s.cfg n tile.1 tile.2 ⟨0, 0, false⟩ m) s.dram }

/-- The byte address of the image byte that holds a pixel, by its column and row counted from the posted corner (R58, R90). -/
def imageAddress (i : Intake) (column row : Nat) : Nat := i.image + row * i.pitch + column / 2

/-- The image word at an even address as the fetch has it: read once, and held while its pixels are taken (R90). -/
def fetchedWord (f : Fetch) (address : Nat) (m : Memory) : Word :=
  match f.held with
  | some (a, w) => if a = address then w else m.readWord address
  | none => m.readWord address

/-- A pixel's level out of the image word that holds its byte: the low byte is the one at the even address (R158), and the high
nibble is the left pixel (R58, R90). -/
def imageLevel (address column : Nat) (w : Word) : Nat :=
  let b := if address % 2 = 0 then w.toNat % 256 else w.toNat / 256
  if column % 2 = 0 then b / 16 else b % 16

/-- What a lane records of a pixel its fetch claims, whose entry is `e` (R91, step 4). -/
def Lane.claimPixel (e : Waveform) (l : Lane) : Lane :=
  { l with claimed := l.claimed + 1, length := max l.length e.length }

/-- What a tile's scratch record takes from a pixel the fetch claims, whose entry is `e` (R91, step 4). -/
def ScratchRecord.claimPixel (e : Waveform) (unknown : Bool) (r : ScratchRecord) : ScratchRecord :=
  { net := r.net + netCharge e, cleared := if unknown then r.cleared + 1 else r.cleared, driven := true }

/-- What the fetch finds at its position: the pixel, its rounded level and whether rounding changed it, its word, its entry,
and the image word it came from (R90, R91). -/
structure PixelFetch where
  x : Nat
  y : Nat
  target : Nat
  rounded : Bool
  word : Word
  entry : Waveform
  image : Nat × Word
  deriving DecidableEq, Repr

/-- Steps 1 to 3 for the pixel at the fetch's position (R91). -/
def lookPixel (f : Fetch) (s : State) : PixelFetch :=
  let l := s.lane f.lane
  let i := s.intake l.slot
  let column := f.position % l.rect.w
  let address := imageAddress i column (f.position / l.rect.w)
  let even := address / 2 * 2
  let image := fetchedWord f even s.dram
  let level := imageLevel address column image
  let target := roundLevel l.mode level
  let x := l.rect.x + column
  let y := l.rect.y + f.position / l.rect.w
  let word := s.dram.readWord (pixelAddress s.cfg x y)
  { x := x, y := y, target := target, rounded := target != level, word := word,
    entry := (s.banks.get l.bank).entry l.mode (pixelFrom word) target, image := (even, image) }

/-- Steps 4 and 5 for the pixel, in DRAM: the claim of its word and the tile's scratch record, where it has a waveform to run;
else nothing (R91). -/
def claimWord (n : Fin 32) (p : PixelFetch) (c : Setup) (m : Memory) : Memory :=
  if p.entry.isEmpty then m
  else
    let m := m.writeWord (pixelAddress c p.x p.y) (pixelClaim p.word (BitVec.ofNat 4 p.target) n)
    writeScratch c n (p.x / 16) (p.y / 16)
      ((readScratch c n (p.x / 16) (p.y / 16) m).claimPixel p.entry (pixelUnknown p.word)) m

/-- The fetch takes the pixel at its position and moves on to the next (R90, R91). -/
def fetchPixel (f : Fetch) (s : State) : State :=
  let p := lookPixel f s
  let l := s.lane f.lane
  let l := { l with flags := { l.flags with rounded := l.flags.rounded || p.rounded } }
  setLane f.lane (if p.entry.isEmpty then l else l.claimPixel p.entry)
    { s with dram := claimWord f.lane p s.cfg s.dram,
             admission := { s.admission with
               fetch := some { f with position := f.position + 1, held := some p.image } } }

/-- Pixels that a lane's fetch takes in all. -/
def Rect.area (r : Rect) : Nat := r.w * r.h

/-- The fetch under way takes one more pixel. Its end is FETCH_END's. -/
def fetchTick (s : State) : State :=
  match s.admission.fetch with
  | some f => if f.position < (s.lane f.lane).rect.area then fetchPixel f s else s
  | none => s

/-- The fetch under way takes `n` more pixels. -/
def fetchPixels : Nat → State → State
  | 0, s => s
  | n + 1, s => fetchPixels n (fetchTick s)

/-- The fetch under way takes every pixel it has not taken yet. -/
def fetchRest (s : State) : State :=
  match s.admission.fetch with
  | some f => fetchPixels ((s.lane f.lane).rect.area - f.position) s
  | none => s

/-! ## One examination, step by step (R77 to R88) -/

/-- The examination goes on with another step. -/
def toStep (x : Exam) (step : ExamStep) (s : State) : State :=
  { s with admission := { s.admission with exam := some { x with step := step } } }

/-- Step 1: flags and effective mode cleared, the rectangle clipped (R78, R79). -/
def clipStep (slot : Fin 64) (s : State) : State :=
  let i := s.intake slot
  let clip := clipRect s.cfg i
  let f := { Flags.none with clipped := clip.isSome && isClipped s.cfg i }
  let s := updateWaiting slot (fun e => { e with examined := true, clip := clip, flags := f, mode := none }) s
  match clip with
  | none => refuse slot .nothingToDo none s
  | some r => { s with admission := { s.admission with exam := some ⟨slot, r, .gates⟩ } }

/-- The modes that the active bank lacks (R34, R84). They are read with the bank at step 2, which is DEDUCED
(notes/assumptions/34.md): R84 asks the active bank of step 2, and a load may take that bank before step 4. -/
def absentModes (s : State) : List Mode := [Mode.clean, .gray, .quick, .ink].filter fun mode => activeLength mode s == 0

/-- Step 2 (R80). -/
def gateStep (x : Exam) (s : State) : State :=
  match stateGates x.rect (s.record x.slot).flags s with
  | .refused outcome => refuse x.slot outcome none s
  | .held f => endExam (updateWaiting x.slot (fun e => { e with flags := f }) s)
  | .passed f =>
    toStep x (.ledger (absentModes s) (rectTiles x.rect) LedgerReading.none)
      (updateWaiting x.slot (fun e => { e with flags := f }) s)

/-- Step 3 for the first `n` of the tiles left; the score seen rises with each of them (R78, R82). -/
def ledgerStep (x : Exam) (n : Nat) (absent : List Mode) (left : List (Nat × Nat)) (reading : LedgerReading) (s : State) :
    State :=
  let g := readTiles s.cfg s.tick (left.take n) (s.dram, reading)
  let s := updateWaiting x.slot (fun e => { e with score := max e.score (min g.2.highest 65535) }) { s with dram := g.1 }
  toStep x (if left.length ≤ n then .mode absent g.2 else .ledger absent (left.drop n) g.2) s

/-- Step 4 (R83, R84). -/
def modeStep (x : Exam) (absent : List Mode) (reading : LedgerReading) (s : State) : State :=
  let i := s.intake x.slot
  let d := decideMode (Mode.ofCode i.mode) (i.ghostPolicy == 1) reading (s.record x.slot).flags
  let s := updateWaiting x.slot (fun e => { e with flags := d.2, mode := some d.1 }) s
  if absent.contains d.1 then refuse x.slot .modeAbsent (some d.1) s else toStep x (.place d.1) s

/-- Steps 5 and 6 (R98, R86). -/
def placeStep (x : Exam) (mode : Mode) (s : State) : State :=
  if heldByOrder x.slot x.rect s then endExam s
  else
    match chooseLane (Mode.ofCode (s.intake x.slot).mode) s with
    | none => endExam s
    | some n => toStep x (.probe mode n) s

/-- Step 8 with its own reads (R88), and the first work of the fetch where the lane is still LOADING: a rise that faults at its
entry has released it (R150, R125). -/
def claimStep (x : Exam) (mode : Mode) (n : Fin 32) (s : State) : State :=
  if s.rails.state = .fault then refuse x.slot (.railsDown s.rails.cause) none s
  else
    match lowestBadSegment x.rect s with
    | some k => refuse x.slot (.segmentFault k) none s
    | none =>
      if s.rails.state = .falling then endExam s
      else
        match s.banks.active with
        | none => endExam s
        | some bank =>
          if (s.banks.get bank).modeLength mode = 0 then endExam s
          else
            let s := claimLane n x.slot mode bank x.rect s
            if (s.lane n).state = .loading then startFetch n s else s

/-- Step 7 (R101, R103, R104, R87) and step 8. That nothing comes between the two is a DESIGN CHOICE
(notes/assumptions/34.md), which no outcome shows: what a fault or a bank change between them does, it does before step 7 too.
That the deferral reaches the tally in this step, so that a FAULT which comes later never finds it to drop, is a DESIGN CHOICE
(notes/assumptions/35.md): R170 allows either order. -/
def probeStep (x : Exam) (mode : Mode) (n : Fin 32) (s : State) : State :=
  match probe x.rect s with
  | .conflict =>
    if (s.intake x.slot).conflictPolicy = 0 then endExam (tallyEvent .conflictDeferrals 1 s)
    else refuse x.slot .conflict none s
  | .clear anyUnknown => if mode ≠ .clean ∧ anyUnknown then endExam s else claimStep x mode n s

/-- The examination in progress makes its next step: of step 3 all that is left (`whole`), or one tile. -/
def examStep (whole : Bool) (s : State) : State :=
  match s.admission.exam with
  | none => s
  | some x =>
    match x.step with
    | .gates => gateStep x s
    | .ledger absent left reading => ledgerStep x (if whole then left.length else 1) absent left reading s
    | .mode absent reading => modeStep x absent reading s
    | .place mode => placeStep x mode s
    | .probe mode n => probeStep x mode n s

/-- `n` steps of the examination in progress, step 3 whole. -/
def examSteps : Nat → State → State
  | 0, s => s
  | n + 1, s => examSteps n (examStep true s)

/-- What is left of the examination in progress, of its steps 2 to 8: it finishes the request, holds it, or claims it with its
fetch under way. -/
def examRest (s : State) : State := examSteps 5 s

/-! ## The pass (R76, R77) -/

/-- The pass ends. Where a trigger came during it, the further pass begins at once, as any trigger starts one. -/
def endPass (s : State) : State :=
  let t := { s with admission := { s.admission with passActive := false, passDue := false } }
  if s.admission.passDue then triggerPass t else t

/-- The first entry of the list that the pass in progress has not examined. -/
def State.nextWaiting (s : State) : Option Waiting := s.admission.list.find? fun e => !e.examined

/-- The walk goes on from the first entry it has not examined, until a fetch is under way or the list ends; `n` examinations
at most. -/
def walkList : Nat → State → State
  | 0, s => endPass s
  | n + 1, s =>
    match s.nextWaiting with
    | none => endPass s
    | some e =>
      let t := examRest (clipStep e.slot s)
      if t.admission.fetch.isSome then t else walkList n t

/-- The walk of the pass in progress, on as many entries as the list holds. -/
def continuePass (s : State) : State := walkList (s.admission.list.length + 1) s

/-- The admission unit makes its next step while no fetch is under way: the examination in progress goes on, by one tile at
step 3; else the pass in progress begins the next one, in READY, and at the list's end it ends, so that a request appended from
then on is not reached by it (R76, R77). That moving past the end is a step of its own is a DESIGN
CHOICE (notes/assumptions/2.md). -/
def passTick (s : State) : State :=
  if s.admission.fetch.isSome then s
  else if s.admission.exam.isSome then examStep false s
  else if s.port.partState = .ready then
    if s.admission.passActive then
      match s.nextWaiting with
      | some e => clipStep e.slot s
      | none => endPass s
    else s
  else s

/-- The admission unit goes on, while no fetch is under way, until one is or the pass has ended: it carries the examination in
progress to its end and, in READY, goes on with the pass in progress (R76, R77). A further pass stands at the front then. -/
def passWork (s : State) : State :=
  if s.admission.fetch.isSome then s
  else
    let s := examRest s
    if s.admission.fetch.isNone ∧ s.port.partState = .ready ∧ s.admission.passActive then continuePass s else s

/-! ## The end of a fetch (R92) -/

/-- The fetch has ended, and the lane table acts by L. -/
def armLane (n : Fin 32) (s : State) : State :=
  if (s.lane n).length = 0 then enterClosing n .done [] s else setLane n { s.lane n with state := .armed } s

/-- The pass moves on after a fetch; in HALTING it ends (R76, R92). -/
def leaveFetch (s : State) : State :=
  { s with admission := { s.admission with fetch := none, passActive := s.port.partState == .ready } }

/-! ## Commands -/

/-- ADMISSION_PASS (R77). -/
def execAdmissionPass (s : State) : Host.Outcome State Fault Refusal := .next (passWork s)

/-- FETCH_END (R92): the fetch takes the pixels that are left; the lane becomes ARMED, or CLOSING with DONE where L = 0, and
the pass moves on: its next examination begins with the admission unit's next step (notes/assumptions/2.md). -/
def execFetchEnd (s : State) : Host.Outcome State Fault Refusal :=
  match s.admission.fetch with
  | some f => .next (leaveFetch (armLane f.lane (fetchRest s)))
  | none => .next s

end Sys2Proof.Machine
end

