-- ==== Sys2Proof/Machine/Links.lean ====
section
/-! DEFINITION. The segment links (chapter 8): streaming, the echo check, windows, faults and training, with ECHO_WORD. -/

namespace Sys2Proof.Machine

/-! ## The echo check value (R134) -/

/-- One bit of the computation: a shift toward the upper end, and 0x1021 where the bit shifted out was 1. -/
def crcBit (v : Word) : Word := if v.getLsbD 15 then (v <<< 1) ^^^ 0x1021#16 else v <<< 1

/-- One byte taken. -/
def crcByte (v : Word) (b : Byte) : Word := (List.range 8).foldl (fun v _ => crcBit v) (v ^^^ (b ++ 0#8))

/-- The check value over the bytes sent, in sending order. -/
def checkValue (bytes : List Byte) : Word := bytes.foldl crcByte 0xFFFF#16

/-! ## The stream (R119, R133) -/

/-- The code of a pixel for the frame that begins, by its word as the stream reads it (R119). -/
def pixelCode (s : State) (w : Word) : DriveCode :=
  let l := s.lane (Fin.ofNat 32 (pixelLane w).toNat)
  if pixelOwned w && l.state == .driving then
    ((s.banks.get l.bank).entry l.mode (pixelFrom w) (pixelTarget w).toNat).getD l.index .zero
  else .zero

/-- Four codes per byte, the leftmost pixel in the lowest bit pair (R133). -/
def packCodes : List DriveCode → List Byte
  | a :: b :: c :: d :: rest => (d.bits ++ c.bits ++ b.bits ++ a.bits) :: packCodes rest
  | _ => []

/-- A link that carries a checked frame takes a row's bytes: it sends them, and its expected echo goes on over them (R133,
R134). Any other link discards them. -/
def Link.takeRow (bytes : List Byte) (l : Link) : Link :=
  if l.frame = .checked then { l with sent := l.sent ++ bytes, expected := bytes.foldl crcByte l.expected } else l

/-- The row's codes go to the link of each segment, from the segment's leftmost column on, and the stream comes to the next row
(R119, R133). -/
def handRow (codes : List DriveCode) (s : State) : State :=
  { s with
    frame := { s.frame with row := s.frame.row + 1, codes := [] },
    links := s.links.mapFinIdx fun k l _ =>
      l.takeRow (packCodes ((codes.drop (k * segmentWidth s.cfg)).take (segmentWidth s.cfg))) }

/-- The stream has rows left of a frame that some link carries. -/
def State.streaming (s : State) : Bool :=
  decide (s.frame.row < s.cfg.height) && s.links.toList.any fun l => l.frame == .checked

/-- The stream reads one more pixel word and works out its code; with a row's last it hands the row on (R119). -/
def streamTick (s : State) : State :=
  if s.streaming then
    let codes := s.frame.codes ++
      [pixelCode s (s.dram.readWord (pixelAddress s.cfg s.frame.codes.length s.frame.row))]
    if codes.length < s.cfg.width then { s with frame := { s.frame with codes := codes } } else handRow codes s
  else s

/-- What is left of the stream's next row is worked out, and the row handed on. -/
def streamRow (s : State) : State :=
  handRow (s.frame.codes ++ (rowWords s.cfg s.frame.codes.length s.frame.row
    (s.cfg.width - s.frame.codes.length) s.dram).map (pixelCode s)) s

/-- `n` more rows of the stream. -/
def streamRows : Nat → State → State
  | 0, s => s
  | n + 1, s => streamRows n (streamRow s)

/-- The stream comes to the frame's last row. -/
def streamRest (s : State) : State := if s.streaming then streamRows (s.cfg.height - s.frame.row) s else s

/-! ## Faults and training (R137 to R141) -/

/-- A link's state, last completed window count and total, handed together (R142). -/
def handSegment (k : Fin 4) (s : State) : State :=
  handHeader (.segment k (s.link k).state (s.link k).lastWindow (s.link k).total) s

/-- Entry to FAULTED (R138, R140): the link stops and abandons its window, the notice cause is set, and the frame engine
takes the fault in the same step. That the segment's field waits at the board writer before anything the lanes' closes hand is
a DESIGN CHOICE (notes/assumptions/6.md): R138 gives its hand-offs no order. -/
def faultLink (k : Fin 4) (s : State) : State :=
  let l := s.link k
  let s := setLink k { l with state := .faulted, windowPosition := 0, windowCount := 0, frame := .none, sent := [] } s
  let s := handSegment k { s with notice := { s.notice with segmentFault := true } }
  takeFault (.segment k) s

/-- A mismatch of a checked frame (R135, R137): the counts, the tally's event, and the fault condition. A mismatch judged in a
frame that is then abandoned stands without advancing the window's position, so that with such frames the count can pass the
window length. That it then goes on rising, and faults the link where it passes the limit, is a DESIGN CHOICE
(notes/assumptions/37.md): R132 and R137 speak of at most the window length. -/
def checkedMismatch (k : Fin 4) (s : State) : State :=
  let l := s.link k
  let s := tallyEvent .segmentMismatches 1 (setLink k { l with windowCount := l.windowCount + 1, total := l.total + 1 } s)
  if floatValue s.cfg.errorLimit < 16 * (l.windowCount + 1) then faultLink k s else s

/-- Training succeeds: UP with an empty window and no progress (R140). -/
def trainingDone (k : Fin 4) (s : State) : State :=
  handSegment k (setLink k { s.link k with state := .up, windowPosition := 0, windowCount := 0,
                                           consecutive := 0, attemptFrames := 0, failedAttempts := 0 } s)

/-- A judged training frame (R140): success is tested before the attempt's frame limit. -/
def trainingFrame (k : Fin 4) (isMatch : Bool) (s : State) : State :=
  let l := s.link k
  let l := { l with attemptFrames := l.attemptFrames + 1, consecutive := if isMatch then l.consecutive + 1 else 0 }
  if s.cfg.matchCount ≤ l.consecutive then trainingDone k (setLink k l s)
  else if 4 * s.cfg.matchCount ≤ l.attemptFrames then
    if s.cfg.attempts ≤ l.failedAttempts + 1 then
      faultLink k (setLink k { l with failedAttempts := l.failedAttempts + 1 } s)
    else setLink k { l with failedAttempts := l.failedAttempts + 1, consecutive := 0, attemptFrames := 0 } s
  else setLink k l s

/-- The frame in progress is judged, once (R135). -/
def judgeFrame (k : Fin 4) (isMatch : Bool) (s : State) : State :=
  let l := s.link k
  let s := setLink k { l with judged := true } s
  match l.frame with
  | .none => s
  | .checked => if isMatch then s else checkedMismatch k s
  | .training => trainingFrame k isMatch s

/-- After judgements: where the last TRAINING link has left TRAINING, the rail supervisor is told, and judges its idle
condition (R141, R154). That the segment's field, handed with the judgement, waits at the board writer before the rail state
FALLING of an idle hold of 0 is a DESIGN CHOICE (notes/assumptions/6.md): no rule orders the two. -/
def settleTraining (before : Bool) (s : State) : State := if before && !s.anyTraining then noteTraining s else s

/-! ## The boundary (R136, R143) -/

/-- The window advances at the end of a checked frame (R136). -/
def advanceWindow (k : Fin 4) (s : State) : State :=
  let l := s.link k
  if l.frame = .checked then
    if s.cfg.window ≤ l.windowPosition + 1 then
      handSegment k (setLink k { l with lastWindow := l.windowCount, windowCount := 0, windowPosition := 0 } s)
    else setLink k { l with windowPosition := l.windowPosition + 1 } s
  else s

/-- A link at the boundary that ends its frame: it judges the frame where no echo has come, and advances its window
(R135, R136). -/
def endFrame (k : Fin 4) (s : State) : State :=
  if (s.link k).frame = .none then s
  else advanceWindow k (if (s.link k).judged then s else judgeFrame k false s)

/-- A link takes up the new frame (R133, R140): checked while UP, training while TRAINING, with the rails ON. -/
def beginFrame (k : Fin 4) (s : State) : State :=
  let l := s.link k
  if s.rails.state = .on ∧ l.state = .up then
    setLink k { l with frame := .checked, judged := false, sent := [], expected := checkValue [] } s
  else if s.rails.state = .on ∧ l.state = .training then
    setLink k { l with frame := .training, judged := false, sent := s.cfg.pattern, expected := checkValue s.cfg.pattern } s
  else setLink k { l with frame := .none, judged := false, sent := [] } s

/-- Every link judges and ends its frame, and then the rail supervisor learns whether a link is still TRAINING. The links act
in the order 0 to 3, which is a DESIGN CHOICE (notes/assumptions/32.md): R114 and R123 give them none, and where two of them
fault at one boundary a lane over both ends by the lower one's fault. -/
def endFrames (s : State) : State :=
  settleTraining s.anyTraining ((List.finRange 4).foldl (fun s k => endFrame k s) s)

/-- Every link takes up the new frame, and the stream stands at its first row. -/
def beginFrames (s : State) : State :=
  (List.finRange 4).foldl (fun s k => beginFrame k s) { s with frame := { s.frame with row := 0, codes := [] } }

/-! ## RELINK's effect (R139) -/

/-- A FAULTED link enters TRAINING with no progress. -/
def startTraining (k : Fin 4) (s : State) : State :=
  if (s.link k).state = .faulted then
    handSegment k (setLink k { s.link k with state := .training, consecutive := 0, attemptFrames := 0,
                                             failedAttempts := 0 } s)
  else s

/-- A segment is FAULTED (R163). -/
def State.anyFaulted (s : State) : Bool := s.links.toList.any fun l => l.state == .faulted

/-- Every FAULTED link enters TRAINING; the supervisor is told, and a link that enters TRAINING with the rails OFF,
FALLING or in FAULT hands a demand (R139, R141). That the segments' fields wait at the board writer before the rail state of a
rise that the demand begins is a DESIGN CHOICE (notes/assumptions/6.md): no rule orders the two. -/
def relinkAll (s : State) : State := riseDemand (noteTraining ((List.finRange 4).foldl (fun s k => startTraining k s) s))

/-! ## Command -/

/-- ECHO_WORD (R135): the first word after the frame's last byte is the frame's echo, and the frame is judged; any other
word is discarded. An echo after a checked frame's last byte finds the frame streamed to its end. -/
def execEchoWord (segment : Fin 4) (value : Word) (whileSending : Bool) (s : State) :
    Host.Outcome State Fault Refusal :=
  let l := s.link segment
  if whileSending ∨ l.judged ∨ l.frame = .none then .next s
  else
    let s := if l.frame = .checked then streamRest s else s
    .next (settleTraining s.anyTraining (judgeFrame segment (value == (s.link segment).expected) s))

end Sys2Proof.Machine
end

