-- ==== Sys2Proof/Machine/Frame.lean ====
section
/-! DEFINITION. The frame boundary (chapter 7.2, 7.3) and the tally's work at it (chapter 11.1). -/

namespace Sys2Proof.Machine

/-! ## Closing the frame just driven (R116, R117) -/

/-- The pixel's last frame was the one just driven: the lane owns it and its entry length is f + 1. -/
def completesNow (bank : Bank) (n : Fin 32) (l : Lane) (w : Word) : Bool :=
  pixelOwnedBy w n && (bank.entry l.mode (pixelFrom w) (pixelTarget w).toNat).length == l.index + 1

/-- The number of a lane's pixels that complete at this boundary. -/
def completions (n : Fin 32) (s : State) : Nat :=
  (rectPixels s.cfg (s.lane n).rect s.dram).countP fun p =>
    completesNow (s.banks.get (s.lane n).bank) n (s.lane n) p.2.2

/-- One DRIVING lane closes the frame just driven: its completing pixels, f, and CLOSING at f = L, its driven tiles to be carried
into the ledger (R116, R120). -/
def advanceLane (n : Fin 32) (s : State) : State :=
  let l := s.lane n
  let done := completions n s
  let m := rewriteRect s.cfg l.rect
    (fun _ _ w => if completesNow (s.banks.get l.bank) n l w then pixelComplete w else w) s.dram
  let s := setLane n { l with completed := l.completed + done, index := l.index + 1 } { s with dram := m }
  if l.index + 1 = l.length then
    enterClosing n .done ((drivenTiles s.cfg n l.rect s.dram).map fun tile => (tile.1, tile.2, 0)) s
  else s

/-- The lanes in a state. -/
def lanesIn (st : LaneState) (s : State) : List (Fin 32) := (List.finRange 32).filter fun n => (s.lane n).state == st

/-- Every DRIVING lane closes the frame just driven, and the completions of all lanes go to the tally (R116, R117). -/
def closeFrame (s : State) : State :=
  let r := (lanesIn .driving s).foldl (fun acc n => (advanceLane n acc.1, acc.2 + completions n acc.1)) (s, 0)
  tallyEvent .pixelsCompleted r.2 r.1

/-! ## Starting the new frame (R118) -/

/-- An ARMED lane enters DRIVING with the new frame's number as its start frame. -/
def startLane (n : Fin 32) (s : State) : State :=
  tallyEvent .lanesStarted 1
    (setLane n { s.lane n with state := .driving, index := 0, startFrame := some s.frame.number } s)

/-- With the rails ON every ARMED lane starts. -/
def startFrame (s : State) : State :=
  if s.rails.state = .on then (lanesIn .armed s).foldl (fun s n => startLane n s) s else s

/-! ## The tally at a boundary (R169, R171) -/

/-- A counter takes its configuration word: a new event select zeroes the counter and clears its flag (R169). -/
def TallyCounter.configure (w : Word) (c : TallyCounter) : TallyCounter :=
  if (TallyConfig.decode w).select = c.config.select then { c with config := TallyConfig.decode w }
  else { value := 0, config := TallyConfig.decode w, previous := false }

/-- The four configuration words read into the copies (R169, R72). -/
def tallyConfigure (s : State) : State :=
  { s with tally := { s.tally with
      counters := s.tally.counters.mapFinIdx fun i c _ => c.configure (s.dram.readWord (s.cfg.boardBase + 4 + 2 * i)) } }

/-- One counter's sample of a level: the condition, the edge and the flag (R171). -/
def TallyCounter.sample (activeLanes pendingDepth : Nat) (c : TallyCounter) : TallyCounter :=
  if c.config.enable && (c.config.select == 8 || c.config.select == 9) then
    let level := if c.config.select = 8 then activeLanes else pendingDepth
    let holds := decide (c.config.threshold ≤ level) != c.config.invert
    { c with value := if holds && !(c.config.edge && c.previous) then c.value + 1 else c.value, previous := holds }
  else c

/-- The two level samples of a boundary (R171). -/
def tallySample (s : State) : State :=
  { s with tally := { s.tally with
      counters := s.tally.counters.map
        (TallyCounter.sample (s.lanes.toList.countP fun l => l.state == .driving) s.admission.list.length) } }

/-! ## Command -/

/-- The frame engine's work at a boundary, and the level samples once the new frame has begun (R116, R118, R171). That the length
of the pending list is read at this moment too is a DESIGN CHOICE (notes/assumptions/10.md): R171 says only that the tally reads
it at the boundary. -/
def engineWork (s : State) : State := tallySample (startFrame (closeFrame s))

/-- The pass a boundary triggers, at the place that is its own (R76, R103): there the admission unit examines at once, as far as
it is free to; a pass that is under way makes it the further pass. -/
def boundaryPass (place here : PassPlace) (s : State) : State :=
  if place = here then (if here = .later then triggerPass s else passWork (triggerPass s)) else s

/-- Everything a frame boundary does (R114): the frame number; the tally's configuration and its FRAMES occurrence; the
links' judgement of the ending frame, the frame engine's work and the pass, in any order; the new frame on the links; the
tally's publication; the trigger of a scan. That the links come before or after all the lanes, one order for every lane and every
link of a boundary (R126 gives it for each lane), that the tally reads its configuration before any other block hands it an
occurrence of this boundary, so that each of them meets the new copies (R114 and R169 give the two no order), and that the tally
publishes after the frame engine's and the links' work, so that their occurrences are always in this publication (R172 lets them
appear in it or in the next), are DESIGN CHOICES (notes/assumptions/10.md). -/
def boundaryWork (order : BoundaryOrder) (s : State) : State :=
  let s := { s with frame := { s.frame with number := s.frame.number + 1 } }
  let s := tallyEvent .frames 1 (tallyConfigure (handHeader (.frameNumber s.frame.number) s))
  let s := boundaryPass order.pass .first s
  let s := if order.linksFirst then engineWork (boundaryPass order.pass .between (endFrames s))
    else endFrames (boundaryPass order.pass .between (engineWork s))
  boundaryPass order.pass .later (triggerScan (tallyPublish (beginFrames s)))

/-- FRAME_BOUNDARY (R114): the frame timer expires. It runs while the rails are RISING or ON. The stream of the ending frame has
come to its end before it (R114, Details). -/
def execFrameBoundary (order : BoundaryOrder) (s : State) : Host.Outcome State Fault Refusal :=
  if s.frame.timer then .next (boundaryWork order (streamRest s)) else .next s

end Sys2Proof.Machine
end

