-- ==== Sys2Proof/Machine/Start.lean ====
section
/-! DEFINITION. START (chapter 10.5): SETUP_VALIDATION, PLANE_INITIALISATION, LEDGER_INITIALISATION and
RESYNCHRONISATION. -/

namespace Sys2Proof.Machine

/-! ## Reading the setup record (R165, step 1) -/

/-- Words START reads: the setup record's, then the seven that hold the band bounds. -/
def startWordCount : Nat := setupAddresses.length + 7

/-- The address of the next word to read, after `words`: the setup record's, and then the bounds', at the library base it gives
(R165, R29). That the bounds are read after the record, and each in rising address order, is a DESIGN CHOICE
(notes/assumptions/29.md). -/
def startAddress (words : List Word) : Nat :=
  if words.length < setupAddresses.length then setupAddresses.getD words.length 0
  else (Setup.decode (words.take setupAddresses.length)).libraryBase + 2 * (words.length - setupAddresses.length)

/-- `n` more words, each as it stands now. -/
def readStartWords : Nat → List Word → Memory → List Word
  | 0, words, _ => words
  | n + 1, words, m => readStartWords n (words ++ [m.readWord (startAddress words)]) m

/-- START reads one more word. -/
def startTick (s : State) : State :=
  match s.start with
  | .reading words =>
    if words.length < startWordCount then { s with start := .reading (readStartWords 1 words s.dram) } else s
  | _ => s

/-! ## Validation (R166) -/

/-- Base and size of the six regions (R166). -/
def regions (c : Setup) : List (Nat × Nat) :=
  [(c.boardBase, Config.boardBytes), (c.planeBase, c.width * c.height * 2), (c.ledgerBase, 8 * tileCount c),
    (c.scratchBase, 128 * tileCount c), (c.libraryBase, Config.libraryBytes), (c.imageBase, c.imageSize)]

/-- A region misplaced by itself: alignment, the first 4 KiB, the end of the DRAM (R166). -/
def regionMisplaced (r : Nat × Nat) : Bool :=
  r.1 % Config.regionAlign != 0 || decide (r.1 < Config.regionAlign) || decide (Config.dramBytes < r.1 + r.2)

/-- Two regions share a byte. -/
def regionsShare (p q : Nat × Nat) : Bool := decide (p.1 < q.1 + q.2) && decide (q.1 < p.1 + p.2)

/-- Some two regions of the list share a byte. -/
def anyShare : List (Nat × Nat) → Bool
  | [] => false
  | r :: rest => rest.any (regionsShare r) || anyShare rest

/-- ceil(a / b). -/
def ceilDiv (a b : Nat) : Nat := (a + b - 1) / b

/-- Check 1 fails. -/
def badGeometry (c : Setup) : Bool :=
  !(decide (64 ≤ c.width) && decide (c.width ≤ 3200) && c.width % 16 == 0 && decide (64 ≤ c.height) &&
    decide (c.height ≤ 2400) && c.height % 16 == 0)

/-- Check 2 fails. -/
def badSegments (c : Setup) : Bool :=
  !(decide (1 ≤ c.segments) && decide (c.segments ≤ 4) && c.width % (16 * c.segments) == 0)

/-- A value lies in a range. -/
def within (lo hi v : Nat) : Bool := decide (lo ≤ v) && decide (v ≤ hi)

/-- Check 3 fails. -/
def badTiming (c : Setup) : Bool :=
  !(within 5000 50000 c.framePeriod && within 1 60 c.sensorInterval && within 10 600 c.staleLimit &&
    within 1 4095 c.halfLife && within 1 255 c.riseTimeout && within 1 255 c.blankingTime &&
    within 1 255 c.wakeQualify && within 0 10000 c.idleHold && within 16 4096 c.window) ||
    decide (c.framePeriod < ceilDiv (c.width * c.height) (400 * c.segments))

/-- Check 4 fails. -/
def badRegion (c : Setup) : Bool := (regions c).any regionMisplaced || anyShare (regions c) || c.imageSize == 0

/-- Each bound is strictly greater than the one before it. -/
def ascending : List Int → Bool
  | a :: b :: rest => decide (a < b) && ascending (b :: rest)
  | _ => true

/-- Check 5 fails (R52). -/
def badBands (bounds : List Int) : Bool :=
  bounds.any (fun b => decide (b < -40) || decide (85 < b)) || !ascending bounds

/-- Check 6 fails. -/
def badRange (c : Setup) : Bool :=
  !(decide (c.planeInit ≤ 2) && decide (c.partialWeight ≤ 15) && decide (c.hysteresis ≤ 16) &&
    decide (c.sensorAddress ≤ 127) && within 1 255 c.matchCount && within 1 15 c.attempts)

/-- The first check that fails, in R166's order. -/
def validateSetup (c : Setup) (bounds : List Int) : SetupError :=
  if badGeometry c then .badGeometry
  else if badSegments c then .badSegments
  else if badTiming c then .badTiming
  else if badRegion c then .badRegion
  else if badBands bounds then .badBands
  else if badRange c then .badRange
  else .none

/-- A START whose validation fails ends in UNCONFIGURED (R167). -/
def failStart (e : SetupError) (s : State) : State :=
  { s with port := { s.port with partState := .unconfigured, setupError := e }, start := .idle,
           notice := { s.notice with startDone := true } }

/-- SETUP_VALIDATION (R166): what has not been read yet is read, and the checks run. On success the copy and the bounds
are kept and write protection takes effect (R165, R159). -/
def execSetupValidation (s : State) : Host.Outcome State Fault Refusal :=
  match s.start with
  | .reading words =>
    let words := readStartWords (startWordCount - words.length) words s.dram
    let c := Setup.decode (words.take setupAddresses.length)
    let bounds := boundsOf (words.drop setupAddresses.length)
    match validateSetup c bounds with
    | .none => .next { s with start := .planeDue, setup := some c, banks := { s.banks with bounds := bounds } }
    | e => .next (failStart e s)
  | _ => .next s

/-! ## The passes and the resynchronisation (R165, steps 2 to 6) -/

/-- PLANE_INITIALISATION (R9). -/
def execPlaneInitialisation (s : State) : Host.Outcome State Fault Refusal :=
  if s.start = .planeDue then .next { s with start := .ledgerDue, dram := planePass s.cfg s.dram } else .next s

/-- LEDGER_INITIALISATION (R22). -/
def execLedgerInitialisation (s : State) : Host.Outcome State Fault Refusal :=
  if s.start = .ledgerDue then .next { s with start := .boardDue, dram := ledgerPass s.cfg s.dram } else .next s

/-- The part half of one slot made IDLE with its post count as seen count, in DRAM and on chip (R73). -/
def resyncSlot (s : State) (slot : Fin 64) : State :=
  let count := s.dram.read (slotAddress s.cfg slot)
  setSlot slot { seen := count, status := .idle, intake := none }
    { s with dram := s.dram.write (partHalf s.cfg slot) (idlePartHalf count) }

/-- Step 3: the board, the header, the scanner, the board writer and the blocked-write capture (R73, R160). -/
def resyncBoard (s : State) : State :=
  let s := (List.finRange 64).foldl resyncSlot s
  { s with dram := s.dram.write (s.cfg.boardBase + 32) (initialHeader s.cfg.segments),
           board := { s.board with cursor := 0, scanDue := false, scan := none, queue := [], written := 0, completion := 0 },
           notice := { s.notice with kept := 0 }, port := { s.port with capture := none } }

/-- Steps 4 and 5: the counters and the blocks' states (R165). -/
def startBlocks (s : State) : State :=
  { s with frame := { s.frame with number := 0 }, tally := Tally.reset,
           banks := { BankUnit.reset with bounds := s.banks.bounds }, monitor := Monitor.reset, rails := Rails.reset,
           links := Vector.ofFn fun k =>
             { Link.reset with state := if k.val < s.cfg.segments then LinkState.up else LinkState.down } }

/-- Step 6: READY, START_DONE, the poll and half-life timers, the tally's copies, the wake qualifier, and the first sensor
read, which begins with the override value word (R165, R46, R51, R56, R156, R169). -/
def enterReady (s : State) : State :=
  let s := { s with port := { s.port with partState := .ready, setupError := .none }, start := .idle,
                    notice := { s.notice with startDone := true },
                    monitor := { s.monitor with pollTimer := true, halfLifeTimer := true },
                    rails := { s.rails with wake := if s.pins.wakeLow then .measuring else .idle } }
  beginRead (tallyConfigure s)

/-- RESYNCHRONISATION (R73), with the end of START (R165). -/
def execResynchronisation (s : State) : Host.Outcome State Fault Refusal :=
  if s.start = .boardDue then .next (enterReady (startBlocks (resyncBoard s))) else .next s

end Sys2Proof.Machine
end

