-- ==== Sys2Proof/Machine/Resets.lean ====
section
/-! DEFINITION. The three resets (chapter 10.6), and what a reset leaves in DRAM of an operation it falls inside (R9, R10, R22,
R67, R73, R94, R113, R165, R168). The part's own steps go word by word or tile by tile; what one of them writes in one step can
stand half written: each word then holds its old or its new value. -/

namespace Sys2Proof.Machine

/-! ## Half-written operations -/

/-- DRAM `old` after an operation that makes it `new` has written the words at these word addresses. -/
def Memory.partly (words : List Nat) (new old : Memory) : Memory :=
  words.foldl (fun m a => m.writeWord (2 * a) (new.readWord (2 * a))) old

/-- A run of operations: where it stands, and the DRAM after each of them, the last first. -/
structure Trace where
  state : State
  drams : List Memory
  deriving DecidableEq, Repr

/-- One operation more. -/
def Trace.next (act : State → State) (t : Trace) : Trace := ⟨act t.state, (act t.state).dram :: t.drams⟩

/-- The admission unit has nothing left of its own pass at a boundary: a fetch is under way, or no examination and no pass, or
one at the list's end. -/
def State.passDone (s : State) : Bool :=
  s.admission.fetch.isSome || s.admission.exam.isNone && (!s.admission.passActive || s.nextWaiting.isNone)

/-- The steps of the admission unit's own pass at a boundary, `n` at most. -/
def passTrace : Nat → Trace → Trace
  | 0, t => t
  | n + 1, t => if t.state.passDone then t else passTrace n (t.next passTick)

/-- Steps of a whole pass, at most: its beginning, and five and a tile's read each for every request. -/
def passBound (s : State) : Nat := (s.admission.list.length + 1) * (tileCount s.cfg + 6) + 1

/-- The admission unit's own pass of a boundary at its place (R103), step by step. -/
def placeTrace (place here : PassPlace) (t : Trace) : Trace :=
  if place = here then passTrace (passBound t.state) { t with state := triggerPass t.state } else t

/-- The links' work of a boundary, link by link: a fault's steps are one operation (R123). -/
def linksTrace (t : Trace) : Trace :=
  let u := (List.finRange 4).foldl (fun t k => t.next (endFrame k)) t
  { u with state := settleTraining t.state.anyTraining u.state }

/-- The lanes' work of a boundary: the completions are one operation (R116, R10). -/
def lanesTrace (t : Trace) : Trace := t.next fun s => startFrame (closeFrame s)

/-- The pieces of a frame boundary that write DRAM, in its order (R114, R126, R103). -/
def boundaryTrace (order : BoundaryOrder) (s : State) : Trace :=
  let t := placeTrace order.pass .first ⟨s, [s.dram]⟩
  if order.linksFirst then lanesTrace (placeTrace order.pass .between (linksTrace t))
  else linksTrace (placeTrace order.pass .between (lanesTrace t))

/-- The DRAM after so many pieces of a boundary. -/
def boundaryDram (order : BoundaryOrder) (pieces : Nat) (s : State) : Memory :=
  let drams := (boundaryTrace order s).drams.reverse
  drams.getD pieces (boundaryTrace order s).state.dram

/-- The first `count` words of the WAITING, RUNNING or header write at the front of the board writer's queue (R67). That a
header write of several fields goes from the lowest address up is a DESIGN CHOICE (notes/assumptions/3.md): R71 says only that
each 32-bit field goes low word first. -/
def boardWritePart (count : Nat) (s : State) : Memory :=
  match s.board.queue with
  | .header w :: _ => s.dram.write (s.cfg.boardBase + w.bytes.1) (w.bytes.2.take (2 * count))
  | .waiting slot seen :: _ => if count = 0 then s.dram else writeStatus s.cfg slot seen .waiting s.dram
  | .running slot seen mode lane :: _ =>
    match count with
    | 0 => s.dram
    | 1 => s.dram.write (partHalf s.cfg slot + 6) [byteOf mode.code, byteOf lane.val]
    | _ => writeRunning s.cfg slot seen mode lane s.dram
  | .finish _ :: _ => s.dram
  | .completion :: _ => s.dram
  | [] => s.dram

/-- The DRAM as a reset leaves it that falls there: as it stands where no such operation can be in progress. Where several
blocks are inside writes of several words at one reset, only the operation the reset point names is half written, and the
others are whole, at the end of their last step: a DESIGN CHOICE (notes/assumptions/3.md), since R13 and R168 end each
operation wherever it stands. -/
def resetDram (p : Config.ResetPoint) (s : State) : Memory :=
  match p with
  | .between => s.dram
  | .planePass words => if s.start = .planeDue then Memory.partly words (planePass s.cfg s.dram) s.dram else s.dram
  | .ledgerPass words => if s.start = .ledgerDue then Memory.partly words (ledgerPass s.cfg s.dram) s.dram else s.dram
  | .boardPass words => if s.start = .boardDue then Memory.partly words (resyncBoard s).dram s.dram else s.dram
  | .boundary order pieces words =>
    if s.frame.timer then Memory.partly words (boundaryDram order (pieces + 1) s) (boundaryDram order pieces s) else s.dram
  | .railFault words =>
    if s.rails.state = .rising ∨ s.rails.state = .on then Memory.partly words (takeFault (.rails .none) s).dram s.dram
    else s.dram
  | .segmentFault k words =>
    if (s.link k).frame ≠ .none ∧ (s.link k).judged = false then Memory.partly words (judgeFrame k false s).dram s.dram
    else s.dram
  | .admission words => Memory.partly words (passTick s).dram s.dram
  | .pixel words => Memory.partly words (fetchTick s).dram s.dram
  | .close words => Memory.partly words (closeTick s).dram s.dram
  | .boardWrite count => boardWritePart count s

/-! ## Resets (R168) -/

/-- Every block's on-chip state at its value after a reset, with the DRAM given; the lines from outside and the commands on
their way belong to the outside world, and the reset is counted. -/
def resetTo (m : Memory) (s : State) : State :=
  { State.reset with pending := s.pending, pins := s.pins, dram := m, resets := s.resets + 1 }

/-- POWER_ON (R168): the DRAM's contents are undefined; they are what the command names. -/
def execPowerOn (contents : List Host.Cell) (s : State) : Host.Outcome State Fault Refusal :=
  .next (resetTo (Memory.ofCells contents) s)

/-- RESET_PIN (R168): asserted, it resets the part and retains the DRAM, with the words that an operation it ends has written;
the port serves no access until it is released (R158). -/
def execResetPin (asserted : Bool) (s : State) : Host.Outcome State Fault Refusal :=
  let t := { s with pins := { s.pins with reset := asserted } }
  if asserted then .next (resetTo (resetDram (Config.resetInside s.resets) s) t) else .next t

end Sys2Proof.Machine
end

