-- ==== Sys2Proof/Machine/Port.lean ====
section
/-! DEFINITION. The memory port (chapter 10.1 to 10.4): MEM reads and writes, the registers, and the commands that
COMMAND / STATE takes. -/

namespace Sys2Proof.Machine

/-- The port serves accesses but while the reset pin is asserted (R158). -/
def State.served (s : State) : Bool := !s.pins.reset

/-- A port access: nothing happens where the port does not serve it. -/
def access (effect : State → State) (s : State) : Host.Outcome State Fault Refusal :=
  if s.served then .next (effect s) else .next s

/-! ## MEM select -/

/-- The part-owned regions as (first byte, length), at the bases of the setup as validated (R159). -/
def protectedRegions (c : Setup) : List (Nat × Nat) :=
  [(c.planeBase, c.width * c.height * 2), (c.ledgerBase, 8 * tileCount c), (c.scratchBase, 128 * tileCount c),
    (c.boardBase + 32, 224)] ++ (List.finRange 64).map fun slot => (partHalf c slot, 32)

/-- The word at a byte address lies in a part-owned region (R159). -/
def isProtected (c : Setup) (a : Nat) : Bool := (protectedRegions c).any fun r => decide (r.1 ≤ a) && decide (a < r.1 + r.2)

/-- The port drops a host write to this word: from the moment START's validation succeeds until the part is UNCONFIGURED
again (R159). -/
def isBlocked (s : State) (a : Nat) : Bool :=
  match s.setup with
  | some c => isProtected c a
  | none => false

/-- A dropped write reaches the blocked-write capture (R160). -/
def captureWrite (a : Nat) (s : State) : State :=
  let s := { s with notice := { s.notice with blockedWrite := true } }
  match s.port.capture with
  | none => handHeader (.blockedAddress a) { s with port := { s.port with capture := some a } }
  | some _ => s

/-- HOST_MEM_READ (R158): the word as it stands; the byte address is twice the word address. -/
def execHostMemRead (address : BitVec 24) (s : State) : Host.Outcome State Fault Refusal :=
  access (fun s => { s with port := { s.port with readData := s.dram.readWord (2 * address.toNat) } }) s

/-- HOST_MEM_WRITE (R159, R160): carried out whole, or dropped whole and captured. -/
def execHostMemWrite (address : BitVec 24) (value : Word) (s : State) : Host.Outcome State Fault Refusal :=
  access
    (fun s =>
      if isBlocked s (2 * address.toNat) then captureWrite (2 * address.toNat) s
      else { s with dram := s.dram.writeWord (2 * address.toNat) value })
    s

/-! ## REG select (R161) -/

/-- COMMAND / STATE as it reads: bits 2..0 part state, 6..4 last command result, 11..8 last setup error. -/
def Port.stateWord (p : Port) : Word :=
  BitVec.ofNat 16 (p.partState.code + 16 * p.result.code + 256 * p.setupError.code)

/-- What a read at a register address returns; the registers have no read effect, and addresses 6 and 7 read 0 (R158). -/
def State.register (s : State) (address : BitVec 3) : Word :=
  match address.toNat with
  | 0 => Config.partId
  | 1 => Config.revision
  | 2 => s.port.stateWord
  | 3 => s.notice.causes.setWidth 16
  | 4 => s.notice.mask.setWidth 16
  | 5 => s.notice.ack
  | _ => 0#16

/-- NOTICE_CAUSE_WRITE (R173, R161): each sticky cause written with a 1 is cleared; COMPLETION's position is discarded. A
write that clears BLOCKED_WRITE arms the capture again and hands address 0 (R160). -/
def clearCauses (value : Word) (s : State) : State :=
  let n := s.notice
  let clears := n.blockedWrite && value.getLsbD 6
  let s := { s with notice := { n with
      startDone := n.startDone && !value.getLsbD 1, railFault := n.railFault && !value.getLsbD 2,
      segmentFault := n.segmentFault && !value.getLsbD 3, libraryError := n.libraryError && !value.getLsbD 4,
      temperature := n.temperature && !value.getLsbD 5, blockedWrite := n.blockedWrite && !value.getLsbD 6,
      halted := n.halted && !value.getLsbD 7 } }
  if clears then handHeader (.blockedAddress 0) { s with port := { s.port with capture := none } } else s

/-- NOTICE_CAUSE_WRITE. -/
def execNoticeCauseWrite (value : Word) (s : State) : Host.Outcome State Fault Refusal := access (clearCauses value) s

/-- NOTICE_MASK_WRITE (R174, R161): the mask is the eight cause bits. -/
def execNoticeMaskWrite (value : Word) (s : State) : Host.Outcome State Fault Refusal :=
  access (fun s => { s with notice := { s.notice with mask := value.setWidth 8 } }) s

/-- NOTICE_ACK_WRITE (R174). -/
def execNoticeAckWrite (value : Word) (s : State) : Host.Outcome State Fault Refusal :=
  access (fun s => { s with notice := { s.notice with ack := value } }) s

/-- REGISTER_WRITE_DISCARDED (R161, R158). -/
def execRegisterWriteDiscarded (_address : BitVec 3) (_value : Word) (s : State) : Host.Outcome State Fault Refusal :=
  .next s

/-! ## Commands (R163) -/

/-- The last command result set. -/
def setResult (r : CommandResult) (s : State) : State := { s with port := { s.port with result := r } }

/-- The result of a command that fails its condition: BUSY while CONFIGURING, else REFUSED_STATE (R163). -/
def State.refusal (s : State) : CommandResult := if s.port.partState = .configuring then .busy else .refusedState

/-- A command write, judged against the state in force (R163): accepted, it has its effect; refused, it changes nothing but
the result. -/
def command (accepted : Bool) (effect : State → State) (s : State) : Host.Outcome State Fault Refusal :=
  access (fun s => if accepted then effect (setResult .accepted s) else setResult s.refusal s) s

/-- START (R163, R165): it enters CONFIGURING and begins to read the setup record. -/
def execStart (s : State) : Host.Outcome State Fault Refusal :=
  command (s.port.partState == .unconfigured) (fun s => setPartState .configuring { s with start := .reading [] }) s

/-- ATTEND (R163, R66). -/
def execAttend (s : State) : Host.Outcome State Fault Refusal :=
  command (s.port.partState == .ready) triggerScan s

/-- A scan's visit is noted as the last one. -/
def Visit.last (v : Visit) : State := Visit.noted { v with scan := { v.scan with ending := true } }

/-- HALT and the scan in progress (R66): it ends after the slot it is visiting, at once where it has visited them all. A scan
that has not read both override words yet still reads them, as every scan does (R51), and visits no slot (DESIGN CHOICE,
notes/assumptions/23.md). A visit whose copy is being made goes on with it. That a scan between two slots is visiting the one
it stands at, and so reads that slot's word now and no posting or mark made later, is a DESIGN CHOICE
(notes/assumptions/23.md): it begins the copy of a posting found, a withdraw found is still to be handed on, and with neither
it has ended. -/
def haltScan (s : State) : State :=
  let ended := { s with board := { s.board with scan := none } }
  match s.board.scan with
  | none => s
  | some k =>
    if !k.opened then { s with board := { s.board with scan := some { k with visited := 64, ending := true } } }
    else if 64 ≤ k.visited then ended
    else if k.copy.isSome then Visit.last ⟨s, k⟩
    else
      match s.found k.slot with
      | .nothing => ended
      | .posting => (beginCopy k s).last
      | .withdraw => Visit.last ⟨s, k⟩

/-- HALTING is entered (R164): no scan is due any more and one in progress ends with its slot, the flush is due, and a pass
goes on only to the end of the examination it is making, its claim and fetch included (R66, R76, R108). -/
def beginHalt (s : State) : State :=
  let s := haltScan s
  setPartState .halting
    { s with board := { s.board with scanDue := false },
             admission := { s.admission with flushDue := true, passDue := false,
                                             passActive := s.admission.passActive &&
                                               (s.admission.exam.isSome || s.admission.fetch.isSome) } }

/-- HALT (R164). -/
def execHalt (s : State) : Host.Outcome State Fault Refusal := command (s.port.partState == .ready) beginHalt s

/-- RESUME (R164). -/
def execResume (s : State) : Host.Outcome State Fault Refusal :=
  command (s.port.partState == .halted) (setPartState .ready) s

/-- RAILS_ON (R152): from FAULT to OFF, with the effects of the arrival. -/
def execRailsOn (s : State) : Host.Outcome State Fault Refusal :=
  command (s.configured && s.rails.state == .fault) (fun s => settleRails (enterOff s)) s

/-- RELINK (R139). -/
def execRelink (s : State) : Host.Outcome State Fault Refusal := command (s.configured && s.anyFaulted) relinkAll s

/-- The temperature statuses in which RELOAD is accepted (R49, R163). -/
def reloadable (st : TempStatus) : Bool := st == .valid || st == .held || st == .override

/-- RELOAD's effect (R41): a request for the current band where there is none; else it is coalesced. -/
def reloadBand (s : State) : State :=
  match s.banks.request, s.monitor.band with
  | none, some band => requestLoad band s
  | _, _ => s

/-- RELOAD (R41, R163). -/
def execReload (s : State) : Host.Outcome State Fault Refusal :=
  command (s.configured && reloadable s.monitor.status) reloadBand s

/-- SOFT_RESET (R168): accepted in any state, with the effects of the reset pin; the result is left at NONE. -/
def execSoftReset (s : State) : Host.Outcome State Fault Refusal :=
  access (fun s => resetTo (resetDram (Config.resetInside s.resets) s) s) s

/-- UNKNOWN_COMMAND (R163): REFUSED_UNKNOWN in every part state, and no other effect. A value that selects another command is
not this row's, and is left to the row it selects. -/
def execUnknownCommand (value : Word) (s : State) : Host.Outcome State Fault Refusal :=
  if commandOf value = .unknownCommand value then access (setResult .refusedUnknown) s else .next s

end Sys2Proof.Machine
end

