-- ==== Sys2Proof/Machine/Background.lean ====
section
/-! DEFINITION. The part's work that goes on between the commands (R30, R62, R68, R77, R90, R108, R119, R120, R165). -/

namespace Sys2Proof.Machine

/-- Each operation in progress goes on by one piece: START and a load read one more word, the start of a sensor read reads its
second override word, a scan reads one more override word, visits one more slot or copies one more word, the fetch takes one
more pixel, the admission unit makes one more step of an examination, reads one more tile or ends its pass, the flush of HALT
finishes one more request, a close carries one more tile into the ledger or hands its outcome, the stream works out one more
pixel's code, and the board writer writes one more word of a finish. What ends the others is left to its command
(notes/assumptions/2.md). -/
def backgroundTick (s : State) : State :=
  boardTick (streamTick (closeTick (flushTick (passTick (fetchTick (scanTick (readTick (loadTick (startTick s)))))))))

end Sys2Proof.Machine
end

