-- ==== Sys2Proof/Machine/Dispatch.lean ====
section
/-! DEFINITION. The meaning of every command, one arm per constructor. -/

namespace Sys2Proof.Machine

/-- The command's effect on everything but the queue of waiting commands. -/
def exec (i : Instr) (s : State) : Host.Outcome State Fault Refusal :=
  match i with
  | .powerOn contents => Sys2Proof.Machine.execPowerOn contents s
  | .resetPin asserted => Sys2Proof.Machine.execResetPin asserted s
  | .start => Sys2Proof.Machine.execStart s
  | .setupValidation => Sys2Proof.Machine.execSetupValidation s
  | .planeInitialisation => Sys2Proof.Machine.execPlaneInitialisation s
  | .ledgerInitialisation => Sys2Proof.Machine.execLedgerInitialisation s
  | .resynchronisation => Sys2Proof.Machine.execResynchronisation s
  | .attend => Sys2Proof.Machine.execAttend s
  | .halt => Sys2Proof.Machine.execHalt s
  | .resume => Sys2Proof.Machine.execResume s
  | .railsOn => Sys2Proof.Machine.execRailsOn s
  | .relink => Sys2Proof.Machine.execRelink s
  | .reload => Sys2Proof.Machine.execReload s
  | .softReset => Sys2Proof.Machine.execSoftReset s
  | .unknownCommand value => Sys2Proof.Machine.execUnknownCommand value s
  | .noticeCauseWrite value => Sys2Proof.Machine.execNoticeCauseWrite value s
  | .noticeMaskWrite value => Sys2Proof.Machine.execNoticeMaskWrite value s
  | .noticeAckWrite value => Sys2Proof.Machine.execNoticeAckWrite value s
  | .registerWriteDiscarded address value => Sys2Proof.Machine.execRegisterWriteDiscarded address value s
  | .hostMemRead address => Sys2Proof.Machine.execHostMemRead address s
  | .hostMemWrite address value => Sys2Proof.Machine.execHostMemWrite address value s
  | .sensorRead => Sys2Proof.Machine.execSensorRead s
  | .sensorReadComplete result => Sys2Proof.Machine.execSensorReadComplete result s
  | .transactionTimeout reached => Sys2Proof.Machine.execTransactionTimeout reached s
  | .staleTimerExpiry => Sys2Proof.Machine.execStaleTimerExpiry s
  | .halfLifeExpiry => Sys2Proof.Machine.execHalfLifeExpiry s
  | .loadSuccess => Sys2Proof.Machine.execLoadSuccess s
  | .loadFailure => Sys2Proof.Machine.execLoadFailure s
  | .scan => Sys2Proof.Machine.execScan s
  | .admissionPass => Sys2Proof.Machine.execAdmissionPass s
  | .fetchEnd => Sys2Proof.Machine.execFetchEnd s
  | .deadlineExpiry slot => Sys2Proof.Machine.execDeadlineExpiry slot s
  | .haltFlush => Sys2Proof.Machine.execHaltFlush s
  | .frameBoundary order => Sys2Proof.Machine.execFrameBoundary order s
  | .returnToFree => Sys2Proof.Machine.execReturnToFree s
  | .finish => Sys2Proof.Machine.execFinish s
  | .boardWrite => Sys2Proof.Machine.execBoardWrite s
  | .echoWord segment value whileSending => Sys2Proof.Machine.execEchoWord segment value whileSending s
  | .riseStep => Sys2Proof.Machine.execRiseStep s
  | .powerGoodAsserted => Sys2Proof.Machine.execPowerGoodAsserted s
  | .powerGoodReleased => Sys2Proof.Machine.execPowerGoodReleased s
  | .riseTimeout => Sys2Proof.Machine.execRiseTimeout s
  | .blankingExpiry => Sys2Proof.Machine.execBlankingExpiry s
  | .supplyAlert asserted => Sys2Proof.Machine.execSupplyAlert asserted s
  | .idleHoldExpiry => Sys2Proof.Machine.execIdleHoldExpiry s
  | .fallStep => Sys2Proof.Machine.execFallStep s
  | .wakeInputLow => Sys2Proof.Machine.execWakeInputLow s
  | .wakeInputHigh => Sys2Proof.Machine.execWakeInputHigh s
  | .wakeEvent => Sys2Proof.Machine.execWakeEvent s

end Sys2Proof.Machine
end

