-- ==== Sys2Proof/Safety.lean ====
section
/-! DEFINITION. What counts as a safe state and a safe run: the values every reset leaves, and the laws of the device that
hold between any two commands, each with the states it is kept over. -/

namespace Sys2Proof.Machine

/-! ## What a reset leaves -/

/-- A link as a reset leaves it: DOWN, with its counts, total and training progress 0 and no frame (R132). -/
def Link.Down (l : Link) : Prop :=
  l.state = .down ∧ l.windowPosition = 0 ∧ l.windowCount = 0 ∧ l.lastWindow = 0 ∧ l.total = 0 ∧ l.consecutive = 0 ∧
    l.attemptFrames = 0 ∧ l.failedAttempts = 0 ∧ l.frame = .none

/-- A bank as a reset leaves it: EMPTY, with no band and a reference count of 0 (R43). -/
def Bank.Empty (bank : Bank) : Prop := bank.state = .empty ∧ bank.band = none ∧ bank.refs = 0

/-- Every block's on-chip state has the value its chapter gives for after a reset (R168). -/
structure State.AfterReset (s : State) : Prop where
  /-- the registers as in R161, with UNCONFIGURED, NONE and NONE in COMMAND / STATE -/
  registers : s.register 0 = 0x2416#16 ∧ s.register 1 = 0x0001#16 ∧ s.register 2 = 0#16 ∧ s.register 3 = 0#16 ∧
    s.register 4 = 0#16 ∧ s.register 5 = 0#16
  /-- the part state and the last setup error (R168) -/
  port : s.port.partState = .unconfigured ∧ s.port.setupError = .none ∧ s.port.result = .none
  /-- the blocked-write capture is armed (R160) -/
  capture : s.port.capture = none
  /-- the notice line is released (R168, R174) -/
  notice : s.noticeLine = false
  /-- no START is in progress and the setup copy is discarded (R168) -/
  setup : s.start = .idle ∧ s.setup = none
  /-- the bank unit (R43) -/
  banks : s.banks.a.Empty ∧ s.banks.b.Empty ∧ s.banks.active = none ∧ s.banks.request = none ∧ s.banks.bounds = [] ∧
    s.banks.libraryError.code = .none
  /-- the temperature monitor (R45) -/
  monitor : s.monitor.lastGood = none ∧ s.monitor.lastResult = none ∧ s.monitor.stale = .stopped ∧
    s.monitor.overrideFlag = false ∧ s.monitor.overrideValue = 0 ∧ s.monitor.status = .none ∧ s.monitor.inUse = none ∧
    s.monitor.band = none ∧ s.monitor.pollTimer = false ∧ s.monitor.halfLifeTimer = false ∧ s.monitor.ticks = 0 ∧
    s.monitor.reading = false ∧ s.monitor.held = none
  /-- the scanner and the board writer (R62, R74) -/
  board : s.board.cursor = 0 ∧ s.board.scanDue = false ∧ s.board.scan = none ∧ s.board.queue = [] ∧ s.board.written = 0 ∧
    ∀ i, (s.slot i).intake = none
  /-- the admission unit (R75) -/
  admission : s.admission.list = [] ∧ s.admission.passActive = false ∧ s.admission.passDue = false ∧ s.admission.exam = none ∧
    s.admission.fetch = none
  /-- every lane is FREE and no close is in progress (R113) -/
  lanes : (∀ n, (s.lane n).state = .free) ∧ s.closing = []
  /-- the frame engine (R114, R115) -/
  frame : s.frame.timer = false ∧ s.frame.number = 0
  /-- every link is DOWN (R132) -/
  links : ∀ k, (s.link k).Down
  /-- the rail supervisor (R144) -/
  rails : s.rails.state = .off ∧ s.rails.step = 0 ∧ s.rails.stepTimer = false ∧ s.rails.riseTimer = false ∧
    s.rails.blankingTimer = false ∧ s.rails.idleTimer = .stopped ∧ s.rails.lanesBusy = false ∧ s.rails.training = false ∧
    s.rails.demandHeld = false ∧ s.rails.cause = .none
  /-- the tally (R169) -/
  tally : s.tally.stamp = 0 ∧ ∀ i : Fin 4, s.tally.counters[i].value = 0 ∧ s.tally.counters[i].config.enable = false ∧
    s.tally.counters[i].previous = false

/-! ## Laws kept by every step -/

/-- START is in progress only in CONFIGURING (R162, R165), and outside READY, HALTING and HALTED the rails are OFF with no
demand held (R144). -/
structure State.StartLaw (s : State) : Prop where
  configuring : s.start ≠ .idle → s.port.partState = .configuring
  railsOff : s.configured = false → s.rails.state = .off ∧ s.rails.demandHeld = false

/-- The frame timer runs exactly while the rails are RISING or ON (R114). -/
def State.TimerLaw (s : State) : Prop := s.frame.timer = true ↔ s.rails.state = .rising ∨ s.rails.state = .on

/-- No load reads into a bank that a lane holds (R38); with it, that the bank being loaded is LOADING, is not the active bank
and that the active bank is READY (R33, R36, R37). -/
structure State.BankLaw (s : State) : Prop where
  reading : ∀ target band words, s.banks.request = some ⟨target, band, .reading words⟩ →
    (s.banks.get target).refs = 0 ∧ (s.banks.get target).state = .loading
  target : ∀ r id, s.banks.request = some r → s.banks.active = some id → r.target ≠ id
  active : ∀ id, s.banks.active = some id → (s.banks.get id).state = .ready

/-- A bank's reference count is the number of lanes out of FREE that recorded it (R35). -/
def State.RefsLaw (s : State) : Prop :=
  ∀ id, (s.banks.get id).refs = s.lanes.toList.countP fun l => l.state != .free && l.bank == id

/-- The lane number of a finish that closes a lane. -/
def BoardRequest.closes : BoardRequest → Option (Fin 32)
  | .finish f => f.lane
  | .header _ => none
  | .waiting _ _ => none
  | .running _ _ _ _ => none
  | .completion => none

/-- The lanes' law (R118): a DRIVING lane has f < L ≤ 64, and no lane is DRIVING while the rails are not ON. With it, what
the blocks must hold for it: an ARMED lane has L ≥ 1 and every length is within 64 (R27, R92); the supervisor knows whether
a lane is out of FREE, and the idle hold runs only without one (R154); no lane is out of FREE in FALLING (R153), nor
outside READY, HALTING and HALTED (R113); the lane being fetched is LOADING (R90), and the lane chosen for the examination in
progress is FREE (R86); each close in progress is of one lane in CLOSING, and each finish that closes a lane waits once, for a
lane in CLOSING whose close is not in progress any more; and every lane in CLOSING has the one or the other (R120). -/
structure State.LaneLaw (s : State) : Prop where
  start : s.StartLaw
  driving : ∀ n, (s.lane n).state = .driving → s.rails.state = .on ∧ (s.lane n).index < (s.lane n).length
  armed : ∀ n, (s.lane n).state = .armed → 1 ≤ (s.lane n).length
  length : ∀ n, (s.lane n).length ≤ Config.maxFrames
  entries : ∀ id, ∀ e ∈ (s.banks.get id).entries, e.length ≤ Config.maxFrames
  busy : s.rails.lanesBusy = decide (0 < s.lanesOut)
  idleHold : s.rails.idleTimer = .running → s.rails.state = .on ∧ s.rails.lanesBusy = false
  falling : s.rails.state = .falling → s.lanesOut = 0
  unconfigured : s.configured = false → s.lanesOut = 0
  fetch : ∀ f, s.admission.fetch = some f → (s.lane f.lane).state = .loading
  chosen : ∀ x, s.admission.exam = some x →
    s.admission.fetch = none ∧ ∀ mode n, x.step = .probe mode n → (s.lane n).state = .free
  closes : s.closing.Nodup ∧ ∀ n ∈ s.closing, (s.lane n).state = .closing
  closing : ∀ r ∈ s.board.queue, ∀ n, r.closes = some n → (s.lane n).state = .closing ∧ n ∉ s.closing
  once : (s.board.queue.filterMap BoardRequest.closes).Nodup
  served : ∀ n, (s.lane n).state = .closing → n ∈ s.closing ∨ ∃ r ∈ s.board.queue, r.closes = some n

/-- The setup's law (R168, R71): with no setup copy held the part is not configured and START has not got past its reads of the
setup record; and outside READY, HALTING and HALTED nothing waits at the board writer and no scan is in progress. -/
structure State.SetupLaw (s : State) : Prop where
  none : s.setup = Option.none → s.configured = false ∧ (s.start = .idle ∨ ∃ words, s.start = .reading words)
  quiet : s.configured = false → s.board.queue = [] ∧ s.board.scan = Option.none

/-- Every lane's clipped rectangle lies in the panel (R79, R88), whose sides are whole tiles (R166), and so do the tiles that a
close still has to carry into the ledger (R120), and the rectangle of the examination in progress, whose tiles left to read are
the last of the rectangle's own (R82). With it, that there is no setup copy while START still reads one, nor in UNCONFIGURED
(R165, R168). -/
structure State.PlaceLaw (s : State) : Prop where
  reading : ∀ words, s.start = .reading words → s.setup = none
  unconfigured : s.port.partState = .unconfigured → s.setup = none
  width : 16 ∣ s.cfg.width
  height : 16 ∣ s.cfg.height
  inside : ∀ n, (s.lane n).rect.x + (s.lane n).rect.w ≤ s.cfg.width ∧ (s.lane n).rect.y + (s.lane n).rect.h ≤ s.cfg.height
  tiles : ∀ n, ∀ t ∈ (s.lane n).toClose, t.1 < s.cfg.width / 16 ∧ t.2.1 < s.cfg.height / 16
  exam : ∀ x, s.admission.exam = some x →
    x.rect.x + x.rect.w ≤ s.cfg.width ∧ x.rect.y + x.rect.h ≤ s.cfg.height ∧
    ∀ absent left reading, x.step = .ledger absent left reading → left <:+ rectTiles x.rect

/-- The slots' law (R70) with the list's (R96): a slot is WAITING exactly when the pending list has an entry for it, and no
slot has two; it is RUNNING exactly when a lane out of FREE records it, and no two such lanes record one slot; the list is
empty outside READY, HALTING and HALTED. With it the lane table's law (R86): a lane from 28 up is held only by a request whose
requested mode is INK; that a take whose copy is being made is of a slot IDLE or FINISHED (R62); and that the examination in
progress is of a request in the list, whose clipped rectangle it holds (R77, R79). -/
structure State.SlotLaw (s : State) : Prop where
  waiting : ∀ i, (s.slot i).status = .waiting ↔ ∃ e ∈ s.admission.list, e.slot = i
  one : (s.admission.list.map Waiting.slot).Nodup
  running : ∀ i, (s.slot i).status = .running ↔ ∃ n, (s.lane n).state ≠ .free ∧ (s.lane n).slot = i
  unshared : ∀ n k, (s.lane n).state ≠ .free → (s.lane k).state ≠ .free → (s.lane n).slot = (s.lane k).slot → n = k
  unconfigured : s.configured = false → s.admission.list = []
  reserved : ∀ n, 28 ≤ n.val → (s.lane n).state ≠ .free → Mode.ofCode (s.intake (s.lane n).slot).mode = .ink
  copying : ∀ k, s.board.scan = some k → k.copy ≠ none → (s.slot k.slot).status = .idle ∨ (s.slot k.slot).status = .finished
  exam : ∀ x, s.admission.exam = some x →
    (∃ e ∈ s.admission.list, e.slot = x.slot ∧ e.examined = true ∧ e.clip = some x.rect) ∧
    clipRect s.cfg (s.intake x.slot) = some x.rect ∧
    ∀ mode n, x.step = .probe mode n → 28 ≤ n.val → Mode.ofCode (s.intake x.slot).mode = .ink

/-- The board writer has part of a request written only of the finish, or of the completion count, at the front of its queue
(R67, R68). -/
def State.WriterLaw (s : State) : Prop :=
  s.board.written = 0 ∨ (∃ f rest, s.board.queue = .finish f :: rest ∧ s.board.written ≤ outcomeWords) ∨
    ∃ rest, s.board.queue = .completion :: rest ∧ s.board.written = 1

/-! ### The plane and the ledger -/

/-- The pixel word of a pixel (R1). -/
def State.word (s : State) (x y : Nat) : Word := s.dram.readWord (pixelAddress s.cfg x y)

/-- The lane a pixel word names. -/
def wordLane (w : Word) : Fin 32 := Fin.ofNat 32 (pixelLane w).toNat

/-- A lane that may own pixels: LOADING, ARMED or DRIVING (R2). -/
def Lane.mayOwn (l : Lane) : Bool := l.state == .loading || l.state == .armed || l.state == .driving

/-- The entry that a pixel word runs on the lane it names (R7, R34). -/
def State.entryOf (s : State) (w : Word) : Waveform :=
  let l := s.lane (wordLane w)
  (s.banks.get l.bank).entry l.mode (pixelFrom w) (pixelTarget w).toNat

/-- START's plane pass is done and no reset has come since (R2). -/
def State.planeKept (s : State) : Bool := s.configured || s.start == .ledgerDue || s.start == .boardDue

/-- START's ledger pass is done and no reset has come since (R21). -/
def State.ledgerKept (s : State) : Bool := s.configured || s.start == .boardDue

/-- The plane's laws. An owned word names a lane in LOADING, ARMED or DRIVING whose clipped rectangle contains the pixel (R2),
and a lane that owns an unknown pixel has effective mode CLEAN (R87). With them, that the setup in force has passed its
validation (R165); that an owned pixel's waveform has frames left, within the lane's length (R91, R116), no frame having
passed for a lane not DRIVING; that the fetch finds the pixels it has not taken yet not owned, and known unless its mode is
CLEAN (R91); and that between START's two passes the plane is as the first has left it (R9). -/
structure State.PlaneLaw (s : State) : Prop where
  setup : s.planeKept = true ∨ s.start = .planeDue → ∃ bounds, validateSetup s.cfg bounds = .none ∧ s.setup = some s.cfg
  owner : s.planeKept = true → ∀ x y, x < s.cfg.width → y < s.cfg.height → pixelOwned (s.word x y) = true →
    let l := s.lane (wordLane (s.word x y))
    l.mayOwn = true ∧ l.rect.contains x y = true ∧ l.index < (s.entryOf (s.word x y)).length ∧
      (s.entryOf (s.word x y)).length ≤ l.length ∧ (pixelUnknown (s.word x y) = true → l.mode = .clean)
  passed : s.start = .ledgerDue → ∀ x y, x < s.cfg.width → y < s.cfg.height →
    (s.cfg.planeInit = 0 → pixelUnknown (s.word x y) = false) ∧ (s.cfg.planeInit = 1 → pixelUnknown (s.word x y) = true)
  first : ∀ n, (s.lane n).state = .loading ∨ (s.lane n).state = .armed → (s.lane n).index = 0
  fetch : ∀ f, s.admission.fetch = some f → ∀ k, f.position ≤ k → k < (s.lane f.lane).rect.area →
    let r := (s.lane f.lane).rect
    let w := s.word (r.x + k % r.w) (r.y + k / r.w)
    pixelOwned w = false ∧ (pixelUnknown w = true → (s.lane f.lane).mode = .clean)

/-- The pixels of a tile. -/
def tilePixels (tx ty : Nat) : List (Nat × Nat) := (List.range 256).map fun k => (16 * tx + k % 16, 16 * ty + k / 16)

/-- The number of a tile's pixels whose unknown flag is set. -/
def State.unknownIn (s : State) (tx ty : Nat) : Nat :=
  (tilePixels tx ty).countP fun p => pixelUnknown (s.word p.1 p.2)

/-- The number of a tile's pixels that a lane owns with the unknown flag set: claimed unknown and not completed yet. -/
def State.stillUnknown (s : State) (n : Fin 32) (tx ty : Nat) : Nat :=
  (tilePixels tx ty).countP fun p => pixelOwnedBy (s.word p.1 p.2) n && pixelUnknown (s.word p.1 p.2)

/-- A lane that may own pixels has the tile under its clipped rectangle. -/
def State.works (s : State) (n : Fin 32) (tx ty : Nat) : Bool :=
  (s.lane n).mayOwn && (rectTiles (s.lane n).rect).contains (tx, ty)

/-- The pixels that a lane has completed out of the unknown state and not yet taken off the tile's U (R21). -/
def State.completedUnknown (s : State) (n : Fin 32) (tx ty : Nat) : Int :=
  if s.works n tx ty then ((readScratch s.cfg n tx ty s.dram).cleared : Int) - s.stillUnknown n tx ty else 0

/-- What the close of a lane still has to take off a tile's U: its cleared count, less the pixels a break has left unknown
(R19, R20). -/
def State.closeDue (s : State) (tx ty : Nat) (n : Fin 32) : Int :=
  match (s.lane n).toClose.find? fun t => t.1 == tx && t.2.1 == ty with
  | some t => ((readScratch s.cfg n tx ty s.dram).cleared : Int) - t.2.2
  | none => 0

/-- A tile's U as it will stand once the closes of all lanes in progress but these have reached it (R21). -/
def State.unknownWith (s : State) (closing : List (Fin 32)) (tx ty : Nat) : Int :=
  s.unknownIn tx ty + ((List.finRange 32).map fun n => s.completedUnknown n tx ty).sum + (closing.map (s.closeDue tx ty)).sum

/-- The tiles a close still has to carry into the ledger fit its ending: none for a released lane, q = 0 for DONE (R120,
R124). -/
def Lane.tilesFit (l : Lane) : Prop :=
  (l.toClose.map fun t => (t.1, t.2.1)).Nodup ∧
    match l.ending with
    | .done => ∀ t ∈ l.toClose, t.2.2 = 0
    | .brokenByRails => True
    | .brokenBySegment _ => True
    | .none => l.toClose = []
    | .railsDown _ => l.toClose = []
    | .segmentFault _ => l.toClose = []

/-- The ledger's law (R21): every entry keeps R and P in their ranges, and its U is the number of the tile's pixels whose
unknown flag is set, where each pixel that a lane has completed out of the unknown state counts as still unknown until the
lane's close has reached the tile, and each that a break has left unknown does not count before. With it, that no close in its
turn takes U below 0, that the tiles of a close fit its ending, and what a scratch record holds of a lane at work (R18). -/
structure State.LedgerLaw (s : State) : Prop where
  residue : s.ledgerKept = true → ∀ tx ty, tx < s.cfg.width / 16 → ty < s.cfg.height / 16 →
    (readEntry s.cfg tx ty s.dram).residue.natAbs ≤ 32767 ∧ (readEntry s.cfg tx ty s.dram).partials ≤ 255
  unknown : s.ledgerKept = true → ∀ tx ty, tx < s.cfg.width / 16 → ty < s.cfg.height / 16 →
    (readEntry s.cfg tx ty s.dram).unknown = s.unknownWith s.closing tx ty ∧
      ∀ k, 0 ≤ s.unknownWith (s.closing.drop k) tx ty
  closes : ∀ n ∈ s.closing, (s.lane n).tilesFit
  scratch : s.ledgerKept = true → ∀ n tx ty, s.works n tx ty = true →
    let r := readScratch s.cfg n tx ty s.dram
    s.stillUnknown n tx ty ≤ r.cleared ∧ r.cleared ≤ 256 ∧
      ((s.lane n).state = .loading ∨ (s.lane n).state = .armed → r.cleared = s.stillUnknown n tx ty) ∧
      (r.driven = false → r.cleared = 0 ∧ ∀ p ∈ tilePixels tx ty, pixelOwnedBy (s.word p.1 p.2) n = false)

/-- The kept value that NOTICE_ACK is compared with is the low half of the completion count (R174). -/
def State.CompletionLaw (s : State) : Prop := s.notice.kept = s.board.completion.setWidth 16

/-- The temperature status and the temperature in use are what the first line of R49's table that applies gives; with it, that
an override value word is held only at the start of a sensor read in progress (R46). -/
structure State.StatusLaw (s : State) : Prop where
  override : s.monitor.overrideFlag = true →
    s.monitor.status = .override ∧ s.monitor.inUse = some s.monitor.overrideValue
  none : s.monitor.overrideFlag = false → s.monitor.lastGood = none → s.monitor.status = .none ∧ s.monitor.inUse = none
  valid : ∀ t, s.monitor.overrideFlag = false → s.monitor.lastGood = some t → s.monitor.lastResult = some .good →
    s.monitor.status = .valid ∧ s.monitor.inUse = some t
  held : ∀ t, s.monitor.overrideFlag = false → s.monitor.lastGood = some t → s.monitor.lastResult = some .failed →
    s.monitor.stale = .running → s.monitor.status = .held ∧ s.monitor.inUse = some t
  invalid : ∀ t, s.monitor.overrideFlag = false → s.monitor.lastGood = some t → s.monitor.lastResult = some .failed →
    s.monitor.stale = .expired → s.monitor.status = .invalid ∧ s.monitor.inUse = Option.none
  start : s.monitor.reading = false → s.monitor.held = Option.none

/-- A safe state: the DRAM is in its canonical form and the device's laws above hold. -/
structure State.Safe (s : State) : Prop where
  dram : s.dram.wf = true
  timer : s.TimerLaw
  banks : s.BankLaw
  refs : s.RefsLaw
  lanes : s.LaneLaw
  slots : s.SlotLaw
  setups : s.SetupLaw
  places : s.PlaceLaw
  plane : s.PlaneLaw
  ledger : s.LedgerLaw
  writer : s.WriterLaw
  completion : s.CompletionLaw
  status : s.StatusLaw

/-- A run of `n` steps is safe when every state it passes is. -/
def SafeRun : Nat → State → Prop
  | 0, s => s.Safe
  | n + 1, s => s.Safe ∧ ∀ t, step s = .next t → SafeRun n t

/-! ## Orders between two states -/

/-- No sticky cause has been cleared between the two (R173). -/
def Notice.Keeps (old new : Notice) : Prop :=
  (old.startDone = true → new.startDone = true) ∧ (old.railFault = true → new.railFault = true) ∧
    (old.segmentFault = true → new.segmentFault = true) ∧ (old.libraryError = true → new.libraryError = true) ∧
    (old.temperature = true → new.temperature = true) ∧ (old.blockedWrite = true → new.blockedWrite = true) ∧
    (old.halted = true → new.halted = true)

/-- The byte address lies in a part-owned region of the setup (10.1, Write protection). -/
def PartOwned (c : Setup) (a : Nat) : Prop :=
  (c.planeBase ≤ a ∧ a < c.planeBase + c.width * c.height * 2) ∨
    (c.ledgerBase ≤ a ∧ a < c.ledgerBase + 8 * ((c.width / 16) * (c.height / 16))) ∨
    (c.scratchBase ≤ a ∧ a < c.scratchBase + 128 * ((c.width / 16) * (c.height / 16))) ∨
    (c.boardBase + 32 ≤ a ∧ a < c.boardBase + 256) ∨
    ∃ slot < 64, c.boardBase + 256 + 64 * slot + 32 ≤ a ∧ a < c.boardBase + 256 + 64 * slot + 64

/-- The condition on which a command is accepted, by R163's table. -/
def State.Accepts (s : State) (c : Instr) : Prop :=
  (c = .start ∧ s.port.partState = .unconfigured) ∨ (c = .attend ∧ s.port.partState = .ready) ∨
    (c = .halt ∧ s.port.partState = .ready) ∨ (c = .resume ∧ s.port.partState = .halted) ∨
    (c = .railsOn ∧ s.configured = true ∧ s.rails.state = .fault) ∨
    (c = .relink ∧ s.configured = true ∧ ∃ k, (s.link k).state = .faulted) ∨
    (c = .reload ∧ s.configured = true ∧
      (s.monitor.status = .valid ∨ s.monitor.status = .held ∨ s.monitor.status = .override)) ∨
    c = .softReset

end Sys2Proof.Machine

namespace Sys2Proof

/-- The three resets (R168). -/
def Instr.resets : Instr → Bool
  | .powerOn _ => true
  | .resetPin asserted => asserted
  | .softReset => true
  | _ => false

end Sys2Proof
end

