-- ==== Sys2Proof/WellFormed.lean ====
section
/-! DEFINITION. The commands the outside world can give: four checks on operands. A command that fails its check is no
access or event of the part's interface; `exec` still answers it (with no effect, or on the part of the operand that is
meaningful), so nothing rests on the check but what a statement says. -/

namespace Sys2Proof

/-- Addresses strictly rise, lie inside the DRAM, and no byte listed is the one an unlisted address reads as. -/
def dramImageWf : List Host.Cell → Bool
  | [] => true
  | [c] => decide (c.1 < Config.dramBytes) && c.2 != 0#8
  | c :: d :: rest => decide (c.1 < d.1) && c.2 != 0#8 && dramImageWf (d :: rest)

/-- The operand checks, one per command that has one. -/
def Instr.wellFormed : Instr → Bool
  | .powerOn contents => dramImageWf contents
  | .resetPin _ => true
  | .start => true
  | .setupValidation => true
  | .planeInitialisation => true
  | .ledgerInitialisation => true
  | .resynchronisation => true
  | .attend => true
  | .halt => true
  | .resume => true
  | .railsOn => true
  | .relink => true
  | .reload => true
  | .softReset => true
  | .unknownCommand value => commandOf value == .unknownCommand value
  | .noticeCauseWrite _ => true
  | .noticeMaskWrite _ => true
  | .noticeAckWrite _ => true
  | .registerWriteDiscarded address _ => address == 0 || address == 1 || address == 6 || address == 7
  | .hostMemRead _ => true
  | .hostMemWrite _ _ => true
  | .sensorRead => true
  | .sensorReadComplete _ => true
  | .transactionTimeout reached => decide (1 ≤ reached) && decide (reached ≤ 7)
  | .staleTimerExpiry => true
  | .halfLifeExpiry => true
  | .loadSuccess => true
  | .loadFailure => true
  | .scan => true
  | .admissionPass => true
  | .fetchEnd => true
  | .deadlineExpiry _ => true
  | .haltFlush => true
  | .frameBoundary _ => true
  | .returnToFree => true
  | .finish => true
  | .boardWrite => true
  | .echoWord _ _ _ => true
  | .riseStep => true
  | .powerGoodAsserted => true
  | .powerGoodReleased => true
  | .riseTimeout => true
  | .blankingExpiry => true
  | .supplyAlert _ => true
  | .idleHoldExpiry => true
  | .fallStep => true
  | .wakeInputLow => true
  | .wakeInputHigh => true
  | .wakeEvent => true

end Sys2Proof
end

