-- ==== Sys2Proof/Certificates/Slice0/Obligations.lean ====
section
/-! DEFINITION. The statements for the provers, in the order of OBLIGATIONS.json: the whole part first, then the memory port
and the commands, START, temperature, banks, the board, admission, lanes and frames, links, rails, the ledger and the
formats. A docstring names the rule a statement rests on and, where it rests on one, the entry of notes/assumptions. -/

open Sys2Proof Sys2Proof.Machine

/-! ## The whole part -/

/-- A step takes the command at the front of the queue and runs it on the part with the queue's rest; with no command waiting
each operation in progress goes on by one piece (notes/assumptions/2.md: the model's choice). -/
def Obligations.StepRunsTheFrontCommand : Prop :=
  (∀ (c : Instr) (rest : List Instr) (s : State),
    step { s with pending := c :: rest } = exec c { s with pending := rest }) ∧
  ∀ s : State, s.pending = [] → step s = .next (backgroundTick s)

/-- Each of these moves by its own events only. The waiting commands by none (the queue is the model's own field,
notes/assumptions/2.md); a line from outside by the command that stands for its edge, and by no reset (the model's choice,
notes/assumptions/9.md); the frame number (R115), D (R12, R56), the completion count (R69), the active bank (R36), the setup
copy and the bounds (R165, R29) and the scan cursor (R62) each by its own; a lane leaves FREE only in an admission pass, which
a boundary may hold (R103) and which goes on between two commands, there only as the lane that the examination in progress has
chosen, and comes back only by its finish or a reset (R111, R112), where the lanes' law rules out a fetch for a lane FREE; the
rails leave FAULT only by RAILS_ON or a reset, the last fault cause staying meanwhile (R151); and otherwise the work between
two commands moves of these only the scan cursor. -/
def Obligations.StateMovesOnlyByItsEvents : Prop :=
  (∀ (c : Instr) (s t : State), exec c s = .next t → t.pending = s.pending) ∧
  (∀ (c : Instr) (s t : State), exec c s = .next t →
     (t.pins.reset ≠ s.pins.reset → ∃ b, c = .resetPin b) ∧
     (t.pins.powerGood ≠ s.pins.powerGood → c = .powerGoodAsserted ∨ c = .powerGoodReleased) ∧
     (t.pins.alert ≠ s.pins.alert → ∃ b, c = .supplyAlert b) ∧
     (t.pins.wakeLow ≠ s.pins.wakeLow → c = .wakeInputLow ∨ c = .wakeInputHigh)) ∧
  (∀ (c : Instr) (s t : State), exec c s = .next t → c.resets = false →
     (t.frame.number ≠ s.frame.number → (∃ order, c = .frameBoundary order) ∨ c = .resynchronisation) ∧
     (t.monitor.ticks ≠ s.monitor.ticks → c = .halfLifeExpiry ∨ c = .resynchronisation) ∧
     (t.board.completion ≠ s.board.completion → c = .finish ∨ c = .resynchronisation) ∧
     (t.banks.active ≠ s.banks.active → c = .loadSuccess ∨ c = .resynchronisation) ∧
     (t.setup ≠ s.setup → c = .setupValidation) ∧
     (t.banks.bounds ≠ s.banks.bounds → c = .setupValidation) ∧
     (t.board.cursor ≠ s.board.cursor → c = .scan ∨ c = .halt ∨ c = .resynchronisation)) ∧
  (∀ (c : Instr) (s t : State) (n : Fin 32), exec c s = .next t →
     (s.LaneLaw → (s.lane n).state = .free → (t.lane n).state ≠ .free →
       c = .admissionPass ∨ ∃ order, c = .frameBoundary order ∧ order.pass ≠ .later) ∧
     ((s.lane n).state ≠ .free → (t.lane n).state = .free → c = .finish ∨ c = .returnToFree ∨ c.resets = true)) ∧
  (∀ (c : Instr) (s t : State), s.StartLaw → s.rails.state = .fault → exec c s = .next t →
     (t.rails.state = .fault ∧ t.rails.cause = s.rails.cause) ∨ c = .railsOn ∨ c.resets = true) ∧
  (∀ s : State, let t := backgroundTick s
     t.pending = s.pending ∧ t.pins = s.pins ∧ t.port = s.port ∧ t.setup = s.setup ∧ t.frame.number = s.frame.number ∧
     t.monitor.ticks = s.monitor.ticks ∧ t.board.completion = s.board.completion ∧ t.banks.active = s.banks.active ∧
     t.banks.bounds = s.banks.bounds ∧ (∀ k, (t.link k).state = (s.link k).state) ∧
     (s.rails.state = .fault → t.rails = s.rails) ∧
     ∀ n, ((s.lane n).state ≠ .free → (t.lane n).state ≠ .free) ∧
       ((s.lane n).state = .free → (t.lane n).state ≠ .free →
         ∃ x mode, s.admission.exam = some x ∧ x.step = .probe mode n))

/-- POWER_ON, RESET_PIN and SOFT_RESET put every block's on-chip state at its value for after a reset (10.6), from which the
model's initial state is safe; they differ only in the DRAM; the release of the reset pin moves nothing else. What the DRAM
holds after RESET_PIN and SOFT_RESET is the next statement's. That the lines from outside keep their levels
(notes/assumptions/9.md), what POWER_ON leaves in the DRAM (notes/assumptions/1.md), and that the moment in which a reset falls
is a free value of the count of resets (notes/assumptions/3.md) are the model's choices. -/
def Obligations.ResetsLeaveTheStatedValues : Prop :=
  (∀ (contents : List Host.Cell) (s : State), (Instr.powerOn contents).wellFormed = true →
    ∃ t, exec (.powerOn contents) s = .next t ∧ t.AfterReset ∧ t.dram = contents ∧ t.pins = s.pins ∧
      t.pending = s.pending) ∧
  (∀ s : State, ∃ t, exec (.resetPin true) s = .next t ∧ t.AfterReset ∧
    t.dram = resetDram (Config.resetInside s.resets) s ∧ t.pins = { s.pins with reset := true } ∧ t.pending = s.pending ∧
    t.resets = s.resets + 1) ∧
  (∀ s : State, s.pins.reset = false →
    ∃ t, exec .softReset s = .next t ∧ t.AfterReset ∧ t.dram = resetDram (Config.resetInside s.resets) s ∧
      t.pins = s.pins ∧ t.pending = s.pending ∧ t.resets = s.resets + 1) ∧
  (∀ s : State, exec (.resetPin false) s = .next { s with pins := { s.pins with reset := false } }) ∧
  State.reset.AfterReset ∧ State.reset.Safe

/-- A reset inside an operation leaves each word of it old or new (1.1, 10.6): inside one of START's passes, inside the fault
steps of a rail fault or of a segment fault, and inside a step of the admission unit, of the fetch or of a close, which change
nothing where no such work is due. A WAITING, RUNNING or header write of the board writer stands up to the word the reset
found (4.4): for every count its first words are new and every other byte is old, the RUNNING write's status word coming last,
a header write's words from the lowest address up (notes/assumptions/3.md: the model's choice between fields); a finish, whose
words go one by one (notes/assumptions/7.md), has no such part; and between two operations the DRAM stays. A frame boundary
goes in pieces, and of the piece the reset falls in each word is old or new; before the first its DRAM is the old one, after
the last the whole boundary's, and a pixel word is at any time the old one or its completion, break or release. Which words
come first inside one such piece, and that one reset finds one operation inside, so that the others in progress stand between
two of their own steps, is the model's choice (notes/assumptions/3.md). -/
def Obligations.ResetsInsideOperationsLeaveEachWordOldOrNew : Prop :=
  ∀ (s : State) (words : List Nat), s.dram.wf = true →
    let partly := fun m new : Memory => ∀ a, m.readWord (2 * a) =
      if a ∈ words then new.readWord (2 * a) else s.dram.readWord (2 * a)
    resetDram .between s = s.dram ∧
    (s.start = .planeDue → ∀ t, exec .planeInitialisation s = .next t → partly (resetDram (.planePass words) s) t.dram) ∧
    (s.start = .ledgerDue → ∀ t, exec .ledgerInitialisation s = .next t →
      partly (resetDram (.ledgerPass words) s) t.dram) ∧
    (s.start = .boardDue → ∀ t, exec .resynchronisation s = .next t → partly (resetDram (.boardPass words) s) t.dram) ∧
    (s.rails.state = .rising ∨ s.rails.state = .on → ∀ t, exec (.supplyAlert true) s = .next t →
      partly (resetDram (.railFault words) s) t.dram) ∧
    (∀ k, (s.link k).frame ≠ .none → (s.link k).judged = false →
      partly (resetDram (.segmentFault k words) s) (judgeFrame k false s).dram) ∧
    partly (resetDram (.admission words) s) (passTick s).dram ∧
    partly (resetDram (.pixel words) s) (fetchTick s).dram ∧
    partly (resetDram (.close words) s) (closeTick s).dram ∧
    (∀ count : Nat,
      let m := resetDram (.boardWrite count) s
      (∀ w rest, s.board.queue = .header w :: rest →
        let at_ := s.cfg.boardBase + w.bytes.1
        (∀ i < w.bytes.2.length, m.read (at_ + i) =
          if i < 2 * count then w.bytes.2.getD i 0 else s.dram.read (at_ + i)) ∧
        ∀ a, a < at_ ∨ at_ + w.bytes.2.length ≤ a → m.read a = s.dram.read a) ∧
      (∀ slot seen rest, s.board.queue = .waiting slot seen :: rest →
        let half := s.cfg.boardBase + 256 + 64 * slot.val + 32
        m.read half = (if 1 ≤ count then seen else s.dram.read half) ∧
        m.read (half + 1) = (if 1 ≤ count then 1 else s.dram.read (half + 1)) ∧
        ∀ a, a ≠ half → a ≠ half + 1 → m.read a = s.dram.read a) ∧
      (∀ slot seen mode lane rest, s.board.queue = .running slot seen mode lane :: rest →
        let half := s.cfg.boardBase + 256 + 64 * slot.val + 32
        m.read (half + 6) = (if 1 ≤ count then
          (match mode with | .clean => 0 | .gray => 1 | .quick => 2 | .ink => 3) else s.dram.read (half + 6)) ∧
        m.read (half + 7) = (if 1 ≤ count then BitVec.ofNat 8 lane.val else s.dram.read (half + 7)) ∧
        m.read half = (if 2 ≤ count then seen else s.dram.read half) ∧
        m.read (half + 1) = (if 2 ≤ count then 2 else s.dram.read (half + 1)) ∧
        ∀ a, a ≠ half → a ≠ half + 1 → a ≠ half + 6 → a ≠ half + 7 → m.read a = s.dram.read a) ∧
      ((∀ w rest, s.board.queue ≠ .header w :: rest) → (∀ slot seen rest, s.board.queue ≠ .waiting slot seen :: rest) →
        (∀ slot seen mode lane rest, s.board.queue ≠ .running slot seen mode lane :: rest) → m = s.dram)) ∧
    resetDram (.boardWrite 0) s = s.dram ∧
    (∀ t, exec .boardWrite s = .next t → ∀ count, 10 ≤ count → resetDram (.boardWrite count) s = t.dram) ∧
    ∀ order, s.frame.timer = true →
      resetDram (.boundary order 0 []) s = s.dram ∧
      (∀ pieces a, (resetDram (.boundary order pieces words) s).readWord (2 * a) =
        (resetDram (.boundary order (if a ∈ words then pieces + 1 else pieces) []) s).readWord (2 * a)) ∧
      (s.PlaceLaw → (∃ bounds, validateSetup s.cfg bounds = .none) →
        (∀ t, exec (.frameBoundary order) s = .next t →
          ∃ k, ∀ pieces, k ≤ pieces → resetDram (.boundary order pieces words) s = t.dram) ∧
        ∀ pieces x y, x < s.cfg.width → y < s.cfg.height →
          let word := fun m : Memory => m.readWord (s.cfg.planeBase + 2 * (y * s.cfg.width + x))
          word (resetDram (.boundary order pieces words) s) ∈ [word s.dram, pixelComplete (word s.dram),
            pixelBreak (word s.dram), pixelRelease (word s.dram)])

/-- Every step keeps the DRAM in its canonical form. The form is the model's (notes/assumptions/1.md); that every store of
the part goes through it makes equal DRAM contents equal data. The frame timer runs exactly while the rails are RISING or ON
(R114), kept by every step, with the law of START that it needs. And a DRIVING lane has f < L ≤ 64, and no lane is DRIVING
while the rails are not ON (R118), kept by every step; with them, that each lane in CLOSING has its close in progress or its
finish waiting, never both, and neither twice (R120). The slots' law is the premise by which no examination stands outside
READY, HALTING and HALTED. -/
def Obligations.EveryStepKeepsTheDramTimerAndLaneLaws : Prop :=
  (∀ s t : State, s.dram.wf = true → step s = .next t → t.dram.wf = true) ∧
  (∀ s t : State, s.SlotLaw → s.StartLaw → s.TimerLaw → step s = .next t → t.StartLaw ∧ t.TimerLaw) ∧
  ∀ s t : State, s.SlotLaw → s.LaneLaw → step s = .next t → t.LaneLaw

/-- No load ever reads into a bank whose reference count is above zero (R38), kept by every step, with what the bank unit
holds for it: a bank being loaded is LOADING and is not the active bank, and the active bank is READY. And a bank's reference
count is always the number of lanes out of FREE that recorded it (R35), kept by every step; the lanes' law is the premise that
tells which lanes a finish returns. -/
def Obligations.EveryStepKeepsTheBankLaw : Prop :=
  (∀ s t : State, s.BankLaw → step s = .next t → t.BankLaw) ∧
  ∀ s t : State, s.LaneLaw → s.RefsLaw → step s = .next t → t.RefsLaw

/-- Every slot WAITING has exactly one entry in the pending list and every slot RUNNING exactly one lane out of FREE (R70),
and the reserved lanes are held only by INK requests (R86), and a take copies only a slot IDLE or FINISHED (R62), and an
examination is of a request in the list (R77), kept by every step; the lanes' law is the premise that tells which lanes the
waiting finishes close. -/
def Obligations.EveryStepKeepsTheSlotLaw : Prop :=
  ∀ s t : State, s.LaneLaw → s.SlotLaw → step s = .next t → t.SlotLaw

/-- The temperature status and the temperature in use always follow the table of R49, and an override value word is held only
at the start of a sensor read in progress (R46); the value NOTICE_ACK is compared with is always the low half of the
completion count (R69, R174); and the board writer has a part written only of the finish or the count at the front of its
queue (R67, R68). Each is kept by every step. -/
def Obligations.EveryStepKeepsTheStatusAndCompletionLaws : Prop :=
  (∀ s t : State, s.StatusLaw → step s = .next t → t.StatusLaw) ∧
  (∀ s t : State, s.CompletionLaw → step s = .next t → t.CompletionLaw) ∧
  (∀ s t : State, s.WriterLaw → step s = .next t → t.WriterLaw)

/-- The plane's laws, kept by every step. An owned pixel word names a lane in LOADING, ARMED or DRIVING whose clipped rectangle
contains the pixel (R2), with frames of its waveform still to run (R91, R116), and a lane that owns an unknown pixel has
effective mode CLEAN (R87). The premises are the laws of the blocks that write the plane. -/
def Obligations.EveryStepKeepsThePlaneLaw : Prop :=
  ∀ s t : State, s.dram.wf = true → s.BankLaw → s.RefsLaw → s.LaneLaw → s.SlotLaw → s.PlaceLaw → s.PlaneLaw →
    step s = .next t → t.PlaneLaw

/-- The ledger's law (R21), kept by every step. Every entry keeps R within ±32,767 and P within 0..255, and its U is the
number of its tile's unknown pixels, each pixel that a lane has completed out of the unknown state counting as still unknown
until the lane's close has reached the tile, and each that a break has left unknown not counting before; so, where no lane at
work and no close in progress has the tile, U is exactly that number. The premises are the laws that it rests on. -/
def Obligations.EveryStepKeepsTheLedgerLaw : Prop :=
  (∀ s t : State, s.dram.wf = true → s.BankLaw → s.RefsLaw → s.LaneLaw → s.SlotLaw → s.PlaceLaw → s.PlaneLaw →
    s.LedgerLaw → step s = .next t → t.LedgerLaw) ∧
  ∀ (s : State) (tx ty : Nat), s.LedgerLaw → s.configured = true → tx < s.cfg.width / 16 → ty < s.cfg.height / 16 →
    (∀ n, s.works n tx ty = false) → (∀ n ∈ s.closing, ∀ t ∈ (s.lane n).toClose, (t.1, t.2.1) ≠ (tx, ty)) →
    (readEntry s.cfg tx ty s.dram).unknown = s.unknownIn tx ty

/-- The part state moves as the table of R162 gives, and in no other way: each change is one of its lines, made by the
command that stands for the line's event. The premise is the law that START is in progress only in CONFIGURING. And a sticky
notice cause is cleared only by a write of NOTICE_CAUSE or a reset: no other command, START included, and no work between
commands clears one (R173). -/
def Obligations.PartStateAndCausesMoveByTheirRules : Prop :=
  (∀ (c : Instr) (s t : State), s.StartLaw → exec c s = .next t → t.port.partState ≠ s.port.partState →
     (c.resets = true ∧ t.port.partState = .unconfigured) ∨
     (c = .start ∧ s.port.partState = .unconfigured ∧ t.port.partState = .configuring) ∨
     (c = .setupValidation ∧ s.port.partState = .configuring ∧ t.port.partState = .unconfigured) ∨
     (c = .resynchronisation ∧ s.port.partState = .configuring ∧ t.port.partState = .ready) ∨
     (c = .halt ∧ s.port.partState = .ready ∧ t.port.partState = .halting) ∨
     ((c = .haltFlush ∨ c = .finish ∨ c = .returnToFree) ∧ s.port.partState = .halting ∧ t.port.partState = .halted ∧
       t.lanesOut = 0 ∧ t.admission.flushDue = false ∧ t.notice.halted = true) ∨
     (c = .resume ∧ s.port.partState = .halted ∧ t.port.partState = .ready)) ∧
  (∀ (c : Instr) (s t : State), exec c s = .next t → c.resets = false → (∀ v, c ≠ .noticeCauseWrite v) →
     s.notice.Keeps t.notice) ∧
  ∀ s : State, (backgroundTick s).port = s.port ∧ s.notice.Keeps (backgroundTick s).notice

/-- The part itself writes only part-owned bytes: no command but a host write and POWER_ON, no reset inside an operation and no
work between commands changes a byte of the setup record, a host half, the library or the image region, or of DRAM that belongs
to no region (4.1, 2.2, 10.1). Where it holds no setup copy it changes no byte at all, since it knows no region then: with the
law of the setup, kept with the lanes' and the slots' laws, that the part is then not configured, START not past its reads and
nothing waiting at the board writer. Kept with it, that every lane's clipped rectangle lies in a panel of whole tiles, where
the law of START has a setup validated only in CONFIGURING. -/
def Obligations.PartWritesOnlyPartOwnedBytes : Prop :=
  (∀ (c : Instr) (s t : State), s.PlaceLaw → exec c s = .next t →
    (s.StartLaw → t.PlaceLaw) ∧
    ((∀ a v, c ≠ .hostMemWrite a v) → (∀ m, c ≠ .powerOn m) →
      ∀ a, ¬ PartOwned s.cfg a → t.dram.read a = s.dram.read a)) ∧
  (∀ s : State, s.PlaceLaw → (backgroundTick s).PlaceLaw ∧
    ∀ a, ¬ PartOwned s.cfg a → (backgroundTick s).dram.read a = s.dram.read a) ∧
  (∀ (c : Instr) (s t : State), s.SetupLaw → s.LaneLaw → s.SlotLaw → exec c s = .next t →
    t.SetupLaw ∧
    (s.setup = none → (∀ a v, c ≠ .hostMemWrite a v) → (∀ m, c ≠ .powerOn m) →
      ∀ a, t.dram.read a = s.dram.read a)) ∧
  ∀ s : State, s.SetupLaw → s.LaneLaw → s.SlotLaw → (backgroundTick s).SetupLaw ∧
    (s.setup = none → ∀ a, (backgroundTick s).dram.read a = s.dram.read a)

/-! ## Memory port and registers -/

/-- What each register address reads, with the fields of COMMAND / STATE and the causes at their bits (10.2, 10.7); and the
notice line is asserted exactly while some cause is set whose mask bit is set (11.2). The register writes other than commands:
the mask and NOTICE_ACK take the word written; a 1 in a sticky cause's position clears it and other positions are discarded;
the write that clears BLOCKED_WRITE arms the capture and, outside UNCONFIGURED and CONFIGURING, hands the address 0; a write at
address 0, 1, 6 or 7 changes nothing. While the reset pin is asserted none is taken. That the mask keeps eight bits, that
NOTICE_CAUSE and the mask read their upper byte as 0 and that the unnamed bits of COMMAND / STATE read 0 is the model's choice
(notes/assumptions/17.md); that the address 0 is not handed in UNCONFIGURED and CONFIGURING is its reading of R71 against R160
(notes/assumptions/14.md). -/
def Obligations.RegistersReadAndTakeTheirFields : Prop :=
  ((∀ s : State,
      s.register 0 = 0x2416#16 ∧ s.register 1 = 0x0001#16 ∧
      (s.register 2).toNat =
        [PartState.unconfigured, .configuring, .ready, .halting, .halted].idxOf s.port.partState +
        16 * [CommandResult.none, .accepted, .refusedState, .refusedUnknown, .busy].idxOf s.port.result +
        256 * [SetupError.none, .badGeometry, .badSegments, .badTiming, .badRegion, .badBands, .badRange].idxOf
          s.port.setupError ∧
      (s.register 3).toNat < 256 ∧
      ((s.register 3).getLsbD 0 = true ↔ s.notice.kept ≠ s.notice.ack) ∧
      (s.register 3).getLsbD 1 = s.notice.startDone ∧ (s.register 3).getLsbD 2 = s.notice.railFault ∧
      (s.register 3).getLsbD 3 = s.notice.segmentFault ∧ (s.register 3).getLsbD 4 = s.notice.libraryError ∧
      (s.register 3).getLsbD 5 = s.notice.temperature ∧ (s.register 3).getLsbD 6 = s.notice.blockedWrite ∧
      (s.register 3).getLsbD 7 = s.notice.halted ∧
      s.register 4 = s.notice.mask.setWidth 16 ∧ s.register 5 = s.notice.ack ∧ s.register 6 = 0#16 ∧ s.register 7 = 0#16) ∧
   (∀ s : State, s.noticeLine = true ↔
      ∃ i < 8, (s.register 3).getLsbD i = true ∧ (s.register 4).getLsbD i = true)) ∧
  (∀ (v : Word) (a : BitVec 3) (s : State),
     exec (.registerWriteDiscarded a v) s = .next s ∧
     (s.pins.reset = true → exec (.noticeMaskWrite v) s = .next s ∧ exec (.noticeAckWrite v) s = .next s ∧
       exec (.noticeCauseWrite v) s = .next s) ∧
     (s.pins.reset = false →
       exec (.noticeMaskWrite v) s = .next { s with notice := { s.notice with mask := v.extractLsb' 0 8 } } ∧
       exec (.noticeAckWrite v) s = .next { s with notice := { s.notice with ack := v } } ∧
       ∃ t, exec (.noticeCauseWrite v) s = .next t ∧
         t.notice =
           { s.notice with
             startDone := s.notice.startDone && !v.getLsbD 1, railFault := s.notice.railFault && !v.getLsbD 2,
             segmentFault := s.notice.segmentFault && !v.getLsbD 3, libraryError := s.notice.libraryError && !v.getLsbD 4,
             temperature := s.notice.temperature && !v.getLsbD 5, blockedWrite := s.notice.blockedWrite && !v.getLsbD 6,
             halted := s.notice.halted && !v.getLsbD 7 } ∧
         t = { s with notice := t.notice, port := t.port, board := t.board } ∧
         (s.notice.blockedWrite = true ∧ v.getLsbD 6 = true →
           t.port = { s.port with capture := none } ∧
           t.board = { s.board with
             queue := s.board.queue ++ if s.configured then [.header (.blockedAddress 0)] else [] }) ∧
         (s.notice.blockedWrite = false ∨ v.getLsbD 6 = false → t.port = s.port ∧ t.board = s.board)))

/-- A host read of a DRAM word drives the word whose byte at the even address stands in bits 7..0 and moves nothing else, and
is not served while the reset pin is asserted (10.1; the word driven is the model's own field, notes/assumptions/13.md). A
host write is carried out whole outside the part-owned regions, and everywhere while no setup has been validated: its two
bytes are stored and every other byte and all other state stay. Inside them it is dropped whole: the DRAM stays, BLOCKED_WRITE
is set, an armed capture records the address and hands it to the board writer, and a holding one keeps its own. Neither is
served while the reset pin is asserted. In CONFIGURING the header is not written: the model's reading
(notes/assumptions/14.md). -/
def Obligations.HostAccessesAreWhole : Prop :=
  (∀ (a : BitVec 24) (s : State),
     (s.pins.reset = false →
       exec (.hostMemRead a) s =
         .next { s with port := { s.port with
           readData := s.dram.read (2 * a.toNat + 1) ++ s.dram.read (2 * a.toNat) } }) ∧
     (s.pins.reset = true → exec (.hostMemRead a) s = .next s)) ∧
  (∀ (a : BitVec 24) (v : Word) (s : State), s.pins.reset = false →
     ((∀ c, s.setup = some c → ¬ PartOwned c (2 * a.toNat)) →
       ∃ t, exec (.hostMemWrite a v) s = .next t ∧ t = { s with dram := t.dram } ∧
         t.dram.read (2 * a.toNat) = v.extractLsb' 0 8 ∧ t.dram.read (2 * a.toNat + 1) = v.extractLsb' 8 8 ∧
         ∀ x, x ≠ 2 * a.toNat → x ≠ 2 * a.toNat + 1 → t.dram.read x = s.dram.read x) ∧
     (∀ c, s.setup = some c → PartOwned c (2 * a.toNat) →
       (s.port.capture = none →
         exec (.hostMemWrite a v) s =
           .next { s with
             notice := { s.notice with blockedWrite := true }, port := { s.port with capture := some (2 * a.toNat) },
             board := { s.board with
               queue := s.board.queue ++ if s.configured then [.header (.blockedAddress (2 * a.toNat))] else [] } }) ∧
       (∀ held, s.port.capture = some held →
         exec (.hostMemWrite a v) s = .next { s with notice := { s.notice with blockedWrite := true } }))) ∧
  ∀ (a : BitVec 24) (v : Word) (s : State), s.pins.reset = true → exec (.hostMemWrite a v) s = .next s

/-! ## Commands -/

/-- The word written to COMMAND / STATE selects the command by 10.7's values. A command write is accepted on the condition of
10.4's table and gives ACCEPTED; refused, it changes nothing but the result, which is BUSY while CONFIGURING and REFUSED_STATE
otherwise; a value that names no command gives REFUSED_UNKNOWN in every part state and changes nothing else; and while the
reset pin is asserted no command is taken. -/
def Obligations.CommandsAreJudgedByTheirConditions : Prop :=
  (commandOf 0x0001 = .start ∧ commandOf 0x0002 = .attend ∧ commandOf 0x0003 = .halt ∧ commandOf 0x0004 = .resume ∧
    commandOf 0x0005 = .railsOn ∧ commandOf 0x0006 = .relink ∧ commandOf 0x0007 = .reload ∧ commandOf 0x0008 = .softReset ∧
    ∀ v : Word, v = 0 ∨ 8 < v.toNat → commandOf v = .unknownCommand v) ∧
  (∀ (c : Instr) (s : State), s.pins.reset = false →
    c ∈ [Instr.start, .attend, .halt, .resume, .railsOn, .relink, .reload] →
    (s.Accepts c → ∃ t, exec c s = .next t ∧ t.port.result = .accepted) ∧
    (¬ s.Accepts c → exec c s = .next { s with port := { s.port with
      result := if s.port.partState = .configuring then .busy else .refusedState } })) ∧
  (∀ (v : Word) (s : State), s.pins.reset = false → v = 0 ∨ 8 < v.toNat →
    exec (.unknownCommand v) s = .next { s with port := { s.port with result := .refusedUnknown } }) ∧
  ∀ (c : Instr) (s : State), s.pins.reset = true →
    (c ∈ [Instr.start, .attend, .halt, .resume, .railsOn, .relink, .reload, .softReset] ∨ ∃ v, c = .unknownCommand v) →
    exec c s = .next s

/-- What START, ATTEND, HALT and RESUME do where they are accepted (10.3, 10.4), all other state kept: START enters
CONFIGURING and begins to read the setup record; ATTEND starts a scan at the cursor, or causes a further one where one is in
progress; HALT enters HALTING, forgets a further scan and a further pass, leaves a pass in progress only the examination it is
making, or its fetch under way, and makes the flush due; and it ends a scan in progress with the slot it is visiting. A copy
in progress goes on; a scan between two slots visits the one it stands at and reads its word now: a posting found begins its
copy, a withdraw found is still to be handed on, and with neither, or with no slot left, the scan has ended; and one that has
not read both override words yet is left with that read alone, and no slot to visit (that reading, and what becomes of a pass
between two examinations, are the model's, notes/assumptions/23.md). RESUME enters READY and triggers nothing. -/
def Obligations.PartStateCommandsTakeEffect : Prop :=
  ∀ s : State, s.pins.reset = false →
    (s.port.partState = .unconfigured →
      exec .start s = .next { s with
        port := { s.port with partState := .configuring, result := .accepted }, start := .reading [] }) ∧
    (s.port.partState = .ready →
      exec .attend s = .next { s with
        port := { s.port with result := .accepted },
        board := match s.board.scan with
          | some _ => { s.board with scanDue := true }
          | none => { s.board with scan := some ⟨s.board.cursor, 0, false, none, false, false, none⟩ } }) ∧
    (s.port.partState = .ready →
      ∃ t, exec .halt s = .next t ∧
        t = { s with
          port := { s.port with partState := .halting, result := .accepted },
          board := { s.board with
            scanDue := false, queue := s.board.queue ++ [.header (.partState .halting)],
            scan := t.board.scan, cursor := t.board.cursor },
          admission := { s.admission with
            flushDue := true, passDue := false,
            passActive := s.admission.passActive && (s.admission.exam.isSome || s.admission.fetch.isSome) } } ∧
        (s.board.scan = none → t.board.scan = none ∧ t.board.cursor = s.board.cursor) ∧
        ∀ k, s.board.scan = some k →
          let at_ := s.cfg.boardBase + 256 + 64 * k.slot.val
          let status := (s.slot k.slot).status
          let visits := k.opened = true ∧ k.visited < 64
          let copies := visits ∧ k.copy ≠ none
          let posting := visits ∧ k.copy = none ∧ (status = .idle ∨ status = .finished) ∧
            s.dram.read at_ ≠ (s.slot k.slot).seen
          let withdraw := visits ∧ k.copy = none ∧ (status = .waiting ∨ status = .running) ∧
            s.dram.read (at_ + 1) = (s.slot k.slot).seen
          (copies ∨ withdraw → t.board.scan = some { k with ending := true } ∧ t.board.cursor = s.board.cursor) ∧
          (posting → t.board.scan = some { k with ending := true, copy := some [s.dram.readWord at_] } ∧
            t.board.cursor = k.slot + 1) ∧
          (k.opened = false →
            t.board.scan = some { k with visited := 64, ending := true } ∧ t.board.cursor = s.board.cursor) ∧
          (k.opened = true → ¬ copies → ¬ posting → ¬ withdraw →
            t.board.scan = none ∧ t.board.cursor = s.board.cursor)) ∧
    (s.port.partState = .halted →
      exec .resume s = .next { s with
        port := { s.port with partState := .ready, result := .accepted },
        board := { s.board with queue := s.board.queue ++ [.header (.partState .ready)] } })

/-- RELINK, accepted, takes every FAULTED link, and no other, to TRAINING with its progress at 0, and the rise demand it hands
is held in FAULT and in FALLING and raises the rails from OFF (8.4, 8.5, 9.5). A link's other state stays, but for a frame
that a rail fault abandons. In FALLING the step delay that runs is not 0, since a delay of 0 would have passed at once. -/
def Obligations.RelinkStartsTraining : Prop :=
  ∀ s : State, s.pins.reset = false → s.configured = true → (∃ k, (s.link k).state = .faulted) →
    ∃ t, exec .relink s = .next t ∧
      (∀ k, (s.link k).state = .faulted →
        t.link k = { s.link k with
          state := .training, consecutive := 0, attemptFrames := 0, failedAttempts := 0, frame := (t.link k).frame }) ∧
      (∀ k, (s.link k).state ≠ .faulted → t.link k = { s.link k with frame := (t.link k).frame }) ∧
      t.port = { s.port with result := .accepted } ∧ t.rails.training = true ∧
      (s.rails.state = .fault →
        t.rails.state = .fault ∧ t.rails.demandHeld = true ∧ t.lanes = s.lanes ∧ t.dram = s.dram ∧
          ∀ k, (t.link k).frame = (s.link k).frame) ∧
      (s.rails.state = .falling → (s.rails.stepTimer = true → s.cfg.stepDelays.getD (s.rails.step - 1) 0 ≠ 0) →
        t.rails = { s.rails with training := true, demandHeld := true,
                                 idleTimer := if s.rails.idleTimer = .running then .stopped else s.rails.idleTimer } ∧
          t.frame = s.frame ∧ t.lanes = s.lanes ∧ t.dram = s.dram ∧ ∀ k, (t.link k).frame = (s.link k).frame) ∧
      (s.rails.state = .off → s.pins.alert = false → s.cfg.stepDelays.getD 0 0 ≠ 0 →
        t.rails.state = .rising ∧ t.frame.timer = true ∧ t.lanes = s.lanes ∧ t.dram = s.dram ∧
          ∀ k, (t.link k).frame = (s.link k).frame)

/-- RELOAD, accepted, forms a load request for the monitor's band where the bank unit holds none: for the bank that is not
active, or A; deferred while a lane holds that bank, else started at once from nothing. Where a request stands it is coalesced
and nothing but the result changes (2.5). -/
def Obligations.ReloadFormsOneRequest : Prop :=
  ∀ s : State, s.pins.reset = false → s.configured = true →
    (s.monitor.status = .valid ∨ s.monitor.status = .held ∨ s.monitor.status = .override) →
    (s.banks.request.isSome = true → exec .reload s = .next { s with port := { s.port with result := .accepted } }) ∧
    ∀ band target, s.monitor.band = some band → s.banks.request = none →
      (s.banks.active = none ∧ target = BankId.a ∨ s.banks.active = some .a ∧ target = .b ∨
        s.banks.active = some .b ∧ target = .a) →
      ((s.banks.get target).refs ≠ 0 →
        exec .reload s = .next { s with
          port := { s.port with result := .accepted },
          banks := { s.banks with request := some ⟨target, band, .deferred⟩ } }) ∧
      ((s.banks.get target).refs = 0 →
        ∃ t, exec .reload s = .next t ∧
          t = { s with port := { s.port with result := .accepted }, banks := t.banks,
                       board := { s.board with queue := s.board.queue ++
                         [.header (.bank target .loading (some band))] } } ∧
          t.banks.request = some ⟨target, band, .reading []⟩ ∧ (t.banks.get target).state = .loading ∧
          (t.banks.get target).band = some band ∧ (t.banks.get target).refs = 0 ∧
          t.banks.get target.other = s.banks.get target.other ∧ t.banks.active = s.banks.active ∧
          t.banks.libraryError = s.banks.libraryError ∧ t.banks.bounds = s.banks.bounds)

/-! ## START -/

/-- The setup record's fields are read where 10.7's layout puts them, each 32-bit field low word first, and the 13 signed
bounds at the library base. SETUP_VALIDATION runs the checks (10.5) on the words START has read and on those it has not read
yet, which it reads as they stand, in rising order, by the model's choice (notes/assumptions/2.md, 29.md): on success the copy
and the bounds are kept and START goes on; on failure the part is UNCONFIGURED with the failing code, START_DONE is set, and
all other state, the DRAM with it, stays. -/
def Obligations.SetupValidationReadsAndDecides : Prop :=
  (∀ m : Memory,
     let words := readStartWords startWordCount [] m
     let c := Setup.decode (words.take 35)
     let b := fun a => (m.read a).toNat
     let w := fun a => b a + 256 * b (a + 1)
     let d := fun a => w a + 65536 * w (a + 2)
     startWordCount = 42 ∧
     c.width = w 0 ∧ c.height = w 2 ∧ c.segments = b 4 ∧ c.planeInit = b 5 ∧ c.framePeriod = w 6 ∧
     c.boardBase = d 8 ∧ c.planeBase = d 12 ∧ c.ledgerBase = d 16 ∧ c.scratchBase = d 20 ∧ c.libraryBase = d 24 ∧
     c.imageBase = d 28 ∧ c.imageSize = d 32 ∧ c.ghostThreshold = m.read 36 ∧ c.partialWeight = b 37 ∧
     c.halfLife = w 38 ∧ c.sensorAddress = b 40 ∧ c.sensorRegister = m.read 41 ∧ c.sensorInterval = b 42 ∧
     c.hysteresis = b 43 ∧ c.staleLimit = w 44 ∧ c.stepDelays = [b 46, b 47, b 48, b 49, b 50] ∧
     c.riseTimeout = b 51 ∧ c.blankingTime = b 52 ∧ c.wakeQualify = b 53 ∧ c.idleHold = w 54 ∧ c.window = w 56 ∧
     c.errorLimit = m.read 58 ∧ c.matchCount = b 59 ∧ c.attempts = b 60 ∧
     c.pattern = (List.range 8).map (fun i => m.read (64 + i)) ∧
     boundsOf (words.drop 35) = (List.range 13).map (fun i => (m.read (d 24 + i)).toInt)) ∧
  (∀ (s : State) (words : List Word), s.start = .reading words →
     let all := readStartWords (42 - words.length) words s.dram
     let c := Setup.decode (all.take 35)
     let bounds := boundsOf (all.drop 35)
     (validateSetup c bounds = .none →
       exec .setupValidation s = .next { s with
         start := .planeDue, setup := some c, banks := { s.banks with bounds := bounds } }) ∧
     (validateSetup c bounds ≠ .none →
       exec .setupValidation s = .next { s with
         start := .idle, port := { s.port with partState := .unconfigured, setupError := validateSetup c bounds },
         notice := { s.notice with startDone := true } }))

/-- The setup checks in the order of 10.5's table: each error is given exactly where its check fails and no earlier check
does. The frame-period floor ceil(W × H / (400 × n)) is written without division. -/
def Obligations.SetupChecksStopAtTheFirstThatFails : Prop :=
  ∀ (c : Setup) (bounds : List Int),
    let geometry := 64 ≤ c.width ∧ c.width ≤ 3200 ∧ 16 ∣ c.width ∧ 64 ≤ c.height ∧ c.height ≤ 2400 ∧ 16 ∣ c.height
    let segments := 1 ≤ c.segments ∧ c.segments ≤ 4 ∧ ∃ k, c.width = c.segments * (16 * k)
    let timing :=
      (5000 ≤ c.framePeriod ∧ c.framePeriod ≤ 50000) ∧ (1 ≤ c.sensorInterval ∧ c.sensorInterval ≤ 60) ∧
      (10 ≤ c.staleLimit ∧ c.staleLimit ≤ 600) ∧ (1 ≤ c.halfLife ∧ c.halfLife ≤ 4095) ∧
      (1 ≤ c.riseTimeout ∧ c.riseTimeout ≤ 255) ∧ (1 ≤ c.blankingTime ∧ c.blankingTime ≤ 255) ∧
      (1 ≤ c.wakeQualify ∧ c.wakeQualify ≤ 255) ∧ c.idleHold ≤ 10000 ∧ (16 ≤ c.window ∧ c.window ≤ 4096) ∧
      c.width * c.height ≤ c.framePeriod * (400 * c.segments)
    let tiles := (c.width / 16) * (c.height / 16)
    let list := [(c.boardBase, 4352), (c.planeBase, c.width * c.height * 2), (c.ledgerBase, 8 * tiles),
      (c.scratchBase, 128 * tiles), (c.libraryBase, 208960), (c.imageBase, c.imageSize)]
    let placed :=
      (∀ r ∈ list, 4096 ∣ r.1 ∧ 4096 ≤ r.1 ∧ r.1 + r.2 ≤ 33554432) ∧ c.imageSize ≠ 0 ∧
      list.Pairwise fun p q => ∀ a, ¬ (p.1 ≤ a ∧ a < p.1 + p.2 ∧ q.1 ≤ a ∧ a < q.1 + q.2)
    let banded := (∀ b ∈ bounds, -40 ≤ b ∧ b ≤ 85) ∧ bounds.Pairwise (· < ·)
    let ranges := c.planeInit ≤ 2 ∧ c.partialWeight ≤ 15 ∧ c.hysteresis ≤ 16 ∧ c.sensorAddress ≤ 127 ∧
      (1 ≤ c.matchCount ∧ c.matchCount ≤ 255) ∧ (1 ≤ c.attempts ∧ c.attempts ≤ 15)
    (validateSetup c bounds = .badGeometry ↔ ¬ geometry) ∧
    (validateSetup c bounds = .badSegments ↔ geometry ∧ ¬ segments) ∧
    (validateSetup c bounds = .badTiming ↔ geometry ∧ segments ∧ ¬ timing) ∧
    (validateSetup c bounds = .badRegion ↔ geometry ∧ segments ∧ timing ∧ ¬ placed) ∧
    (validateSetup c bounds = .badBands ↔ geometry ∧ segments ∧ timing ∧ placed ∧ ¬ banded) ∧
    (validateSetup c bounds = .badRange ↔ geometry ∧ segments ∧ timing ∧ placed ∧ banded ∧ ¬ ranges) ∧
    (validateSetup c bounds = .none ↔ geometry ∧ segments ∧ timing ∧ placed ∧ banded ∧ ranges)

/-- PLANE_INITIALISATION makes one pass over every pixel word of the panel, by the plane-init field's line of 1.1's table, and
leaves every byte outside the plane and all other state as they were; START goes on to the ledger only after it.
LEDGER_INITIALISATION then writes every entry of the panel by the field's line of 1.2's table, counting under KEEP the unknown
flags the plane pass has left, and leaves every byte outside the ledger and all other state as they were. The premise that the
two regions share no byte is what the setup checks ensure. -/
def Obligations.StartPassesWriteEveryPixelAndEntry : Prop :=
  (∀ (s : State) (c : Setup), s.dram.wf = true → s.start = .planeDue → s.setup = some c →
     ∃ t, exec .planeInitialisation s = .next t ∧ t = { s with start := .ledgerDue, dram := t.dram } ∧
       (∀ x y, x < c.width → y < c.height →
         let a := c.planeBase + 2 * (y * c.width + x)
         let old := s.dram.readWord a
         (c.planeInit = 0 → t.dram.readWord a = 0x00FF#16) ∧
         (c.planeInit = 1 → t.dram.readWord a = 0x40FF#16) ∧
         (c.planeInit = 2 → t.dram.readWord a =
           (old &&& 0x40FF#16) ||| (if old.getLsbD 13 then 0x4000#16 else 0#16))) ∧
       ∀ a, a < c.planeBase ∨ c.planeBase + c.width * c.height * 2 ≤ a → t.dram.read a = s.dram.read a) ∧
  (∀ (s : State) (c : Setup), s.dram.wf = true → s.start = .ledgerDue → s.setup = some c →
     (c.planeBase + c.width * c.height * 2 ≤ c.ledgerBase ∨
       c.ledgerBase + 8 * ((c.width / 16) * (c.height / 16)) ≤ c.planeBase) →
     ∃ t, exec .ledgerInitialisation s = .next t ∧ t = { s with start := .boardDue, dram := t.dram } ∧
       (∀ tx ty, tx < c.width / 16 → ty < c.height / 16 →
         let a := c.ledgerBase + 8 * (ty * (c.width / 16) + tx)
         let unknown := (List.range 256).countP fun i =>
           (s.dram.readWord (c.planeBase + 2 * ((16 * ty + i / 16) * c.width + (16 * tx + i % 16)))).getLsbD 14
         (c.planeInit = 0 → t.dram.readWord a = 0 ∧ t.dram.readWord (a + 2) = 0 ∧ t.dram.readWord (a + 6) = 0) ∧
         (c.planeInit = 1 → t.dram.readWord a = 0 ∧ t.dram.readWord (a + 2) = 255#16 ∧
           t.dram.readWord (a + 6) = 256#16) ∧
         (c.planeInit = 2 →
           t.dram.readWord a = (if s.dram.readWord a = 0x8000#16 then 0x8001#16 else s.dram.readWord a) ∧
           t.dram.readWord (a + 2) = (s.dram.readWord (a + 2)) &&& 0x00FF#16 ∧
           (t.dram.readWord (a + 6)).toNat = unknown) ∧
         (c.planeInit ≤ 2 → t.dram.readWord (a + 4) = 0)) ∧
       ∀ a, a < c.ledgerBase ∨ c.ledgerBase + 8 * ((c.width / 16) * (c.height / 16)) ≤ a →
         t.dram.read a = s.dram.read a)

/-- RESYNCHRONISATION makes every slot IDLE with its post count as its seen count, writes every part half and the header's
part half with the initial state, zeroes the counters, sets the blocks' states and enters READY (4.6, 10.5); the host halves,
the rest of the DRAM, the lanes and the admission unit stay. The first sensor read begins in it with the override value word
(3.2, 3.4; notes/assumptions/18.md), and the wake qualifier begins with it
(notes/assumptions/19.md): both are the model's readings. The zeros of the library error's fields and header bytes beside its
code (notes/assumptions/16.md), of a slot's client tag echo (notes/assumptions/38.md), and of a link's expected echo,
judgement and bytes sent (notes/assumptions/21.md), are its choices. -/
def Obligations.ResynchronisationEntersReady : Prop :=
  ∀ (s : State) (c : Setup), s.start = .boardDue → s.setup = some c →
    ∃ t, exec .resynchronisation s = .next t ∧
      t.port = { s.port with partState := .ready, setupError := .none, capture := none } ∧ t.start = .idle ∧
      t.setup = s.setup ∧ t.lanes = s.lanes ∧ t.closing = s.closing ∧ t.pins = s.pins ∧
      t.notice = { s.notice with startDone := true, kept := 0 } ∧
      (∀ i : Fin 64,
        let slot := c.boardBase + 256 + 64 * i.val
        t.slot i = ⟨s.dram.read slot, .idle, none⟩ ∧ t.dram.read (slot + 32) = s.dram.read slot ∧
        (∀ j, 33 ≤ j → j < 64 → t.dram.read (slot + j) = if j = 38 ∨ j = 39 then 0xFF#8 else 0#8)) ∧
      (∀ j, 32 ≤ j → j < 256 → t.dram.read (c.boardBase + j) =
        if j = 40 then 2#8 else if j = 45 ∨ j = 47 ∨ j = 49 ∨ j = 50 then 0xFF#8
        else if j = 68 ∧ 0 < c.segments ∨ j = 76 ∧ 1 < c.segments ∨ j = 84 ∧ 2 < c.segments ∨ j = 92 ∧ 3 < c.segments
          then 1#8
        else 0#8) ∧
      (∀ a, a < c.boardBase + 32 ∨ c.boardBase + 4352 ≤ a → t.dram.read a = s.dram.read a) ∧
      (∀ (i : Fin 64) j, j < 32 →
        t.dram.read (c.boardBase + 256 + 64 * i.val + j) = s.dram.read (c.boardBase + 256 + 64 * i.val + j)) ∧
      t.board.cursor = 0 ∧ t.board.scanDue = false ∧ t.board.scan = none ∧ t.board.written = 0 ∧
      t.board.completion = 0 ∧ t.frame = { s.frame with number := 0 } ∧
      t.tally.stamp = 0 ∧ (∀ i : Fin 4, t.tally.counters[i].value = 0 ∧ t.tally.counters[i].previous = false ∧
        t.tally.counters[i].config = TallyConfig.decode (s.dram.readWord (c.boardBase + 4 + 2 * i.val))) ∧
      (∀ k : Fin 4, t.link k = { Link.reset with state := if k.val < c.segments then .up else .down }) ∧
      t.rails = { Rails.reset with wake := if s.pins.wakeLow then .measuring else .idle } ∧
      t.monitor = { lastGood := none, lastResult := none, stale := .stopped, overrideFlag := false, overrideValue := 0,
                    status := .none, inUse := none, band := none, pollTimer := true, halfLifeTimer := true, ticks := 0,
                    reading := true, held := some (s.dram.readWord c.boardBase), bus := [] } ∧
      t.banks = { BankUnit.reset with bounds := s.banks.bounds } ∧ t.board.queue = [] ∧ t.admission = s.admission

/-! ## Temperature and bands -/

/-- A sensor read starts at the poll timer's expiry (3.2, 3.4): the override value word is read, and after it the flag word, as
it stands then, whatever the host has written between the two; with it the words replace the copy, the status and the
temperature in use follow, and the start condition is issued; the readings and the timers stay. The rest of the start goes
between two commands, or with the command that ends the read, and the copy is replaced whole (notes/assumptions/39.md: the
model's choice and reading). After a completed read the bus has seen R47's eight steps; an unacknowledged byte or the timeout
ends the transaction with a stop condition there, and the timeout's read completes as FAILED with the readings kept. The record
of the bus, and the timeout's operand, are the model's own (notes/assumptions/26.md); that an expiry during a read begins a new
one in its place is its choice (notes/assumptions/24.md). -/
def Obligations.SensorTransactionsRunInOrder : Prop :=
  (∀ s : State, s.monitor.pollTimer = true →
     exec .sensorRead s = .next { s with monitor := { s.monitor with
       reading := true, held := some (s.dram.readWord s.cfg.boardBase), bus := [] } }) ∧
  (∀ (s : State) (value : Word), s.monitor.held = some value →
     let flag := (s.dram.readWord (s.cfg.boardBase + 2)).getLsbD 0
     let t := readTick s
     t = { s with monitor := t.monitor, notice := t.notice, board := t.board, banks := t.banks,
                  admission := t.admission } ∧
     t.monitor = { s.monitor with
       overrideFlag := flag, overrideValue := value.toInt, held := none, bus := [.start], status := t.monitor.status,
       inUse := t.monitor.inUse, band := t.monitor.band } ∧
     t.board = { s.board with queue := t.board.queue } ∧
     (flag = true → t.monitor.status = .override ∧ t.monitor.inUse = some value.toInt) ∧
     (flag = false → s.monitor.lastGood = none → t.monitor.status = .none ∧ t.monitor.inUse = none) ∧
     (∀ q, flag = false → s.monitor.lastGood = some q → s.monitor.lastResult = some .good →
       t.monitor.status = .valid ∧ t.monitor.inUse = some q)) ∧
  (∀ (s : State) (c : Instr), s.monitor.reading = true →
     (∃ result, c = .sensorReadComplete result) ∨ (∃ n, c = .transactionTimeout n) → exec c s = exec c (readTick s)) ∧
  (∀ s : State, s.monitor.reading = true →
     let write := BitVec.ofNat 8 (2 * s.cfg.sensorAddress)
     let read := BitVec.ofNat 8 (2 * s.cfg.sensorAddress + 1)
     let steps : List I2cEvent := [.start, .sent write true, .sent s.cfg.sensorRegister true, .repeatedStart,
       .sent read true, .received true, .received false]
     (∀ raw, ∃ t, exec (.sensorReadComplete (.data raw)) s = .next t ∧ t.monitor.bus = steps ++ [.stop]) ∧
     (∃ t, exec (.sensorReadComplete (.noAck .addressWrite)) s = .next t ∧
       t.monitor.bus = [.start, .sent write false, .stop]) ∧
     (∃ t, exec (.sensorReadComplete (.noAck .registerIndex)) s = .next t ∧
       t.monitor.bus = [.start, .sent write true, .sent s.cfg.sensorRegister false, .stop]) ∧
     (∃ t, exec (.sensorReadComplete (.noAck .addressRead)) s = .next t ∧
       t.monitor.bus = [.start, .sent write true, .sent s.cfg.sensorRegister true, .repeatedStart, .sent read false,
         .stop]) ∧
     ∀ n, 1 ≤ n → n ≤ 7 → ∃ t, exec (.transactionTimeout n) s = .next t ∧
       t = { s with monitor := t.monitor, notice := t.notice, board := t.board, banks := t.banks,
                    admission := t.admission } ∧
       t.monitor.bus = steps.take n ++ [.stop] ∧ t.monitor.reading = false ∧ t.monitor.lastResult = some .failed ∧
       t.monitor.lastGood = s.monitor.lastGood ∧ t.monitor.stale = s.monitor.stale)

/-- A sensor read completes by R48: the two data bytes are converted by an arithmetic shift of six bits, a result in range is
GOOD and sets the last good reading and restarts the stale timer, any other and a missing acknowledge is FAILED and leaves
both; the rule's table of conversions holds; and nothing outside the monitor, the notice cause, the board writer, the bank
unit and the admission unit moves. -/
def Obligations.SensorReadsCompleteByTheirRange : Prop :=
  (∀ (raw : Word) (s : State), s.monitor.reading = true →
    ∃ t, exec (.sensorReadComplete (.data raw)) s = .next t ∧
      t = { s with monitor := t.monitor, notice := t.notice, board := t.board, banks := t.banks,
                   admission := t.admission } ∧
      t.monitor.reading = false ∧
      (-512 ≤ raw.toInt / 64 ∧ raw.toInt / 64 ≤ 511) ∧ (raw.sshiftRight 6).toInt = raw.toInt / 64 ∧
      (-160 ≤ raw.toInt / 64 ∧ raw.toInt / 64 ≤ 340 →
        t.monitor.lastGood = some (raw.toInt / 64) ∧ t.monitor.lastResult = some .good ∧ t.monitor.stale = .running) ∧
      (raw.toInt / 64 < -160 ∨ 340 < raw.toInt / 64 →
        t.monitor.lastGood = s.monitor.lastGood ∧ t.monitor.lastResult = some .failed ∧
          t.monitor.stale = s.monitor.stale)) ∧
  (∀ (which : UnackedByte) (s : State), s.monitor.reading = true →
    ∃ t, exec (.sensorReadComplete (.noAck which)) s = .next t ∧
      t = { s with monitor := t.monitor, notice := t.notice, board := t.board, banks := t.banks,
                   admission := t.admission } ∧
      t.monitor.reading = false ∧ t.monitor.lastResult = some .failed ∧ t.monitor.lastGood = s.monitor.lastGood ∧
      t.monitor.stale = s.monitor.stale) ∧
  (∀ raw : Word, (-160 ≤ raw.toInt / 64 ↔ -10240 ≤ raw.toInt) ∧
    (raw.toInt / 64 = 340 ↔ 21760 ≤ raw.toInt ∧ raw.toInt ≤ 21823)) ∧
  ∀ row ∈ [(0x1A40#16, (105 : Int)), (0xFED4#16, -5), (0xD800#16, -160), (0xD7FF#16, -161), (0x5500#16, 340),
    (0x5540#16, 341), (0xFFFF#16, -1)], row.1.toInt / 64 = row.2

/-- The first GOOD read after START (3.3, 3.5), here of a sensor that has been addressed: the status leaves NONE for VALID,
the temperature, the status and the band go to the board writer, the band is the raw band, its load starts in bank A, and a
pass is triggered in READY. That the three and then bank A's LOADING wait in this order is the model's choice
(notes/assumptions/6.md). The raw band is the largest i in 1..11 whose bound lies at or below the temperature, or 0; an
evaluation moves the band by the first of 3.5's three cases that holds; with h = 0 it always equals the raw band; and a GOOD
read evaluates the band exactly when it brings a new temperature into use. The band's change asks for its load: a deferred
request takes the new band, one being read starts again from nothing for it, and a new one is deferred while a lane holds its
bank (2.5). -/
def Obligations.BandsMoveByTheirBoundsAndHysteresis : Prop :=
  (∀ (s : State) (raw : Word), s.StatusLaw → s.monitor.reading = true → s.monitor.held = none → s.configured = true →
     s.monitor.overrideFlag = false → s.monitor.lastGood = none → s.monitor.band = none → s.banks.active = none →
     s.banks.request = none → s.banks.a.refs = 0 → -160 ≤ raw.toInt / 64 → raw.toInt / 64 ≤ 340 →
     ∃ t, exec (.sensorReadComplete (.data raw)) s = .next t ∧ t.monitor.status = .valid ∧
       t.monitor.inUse = some (raw.toInt / 64) ∧ t.monitor.band = some (rawBand s.banks.bounds (raw.toInt / 64)) ∧
       t.board.queue = s.board.queue ++
         (if raw.toInt / 64 = 0 then [] else [.header (.temperature (raw.toInt / 64))]) ++
         [.header (.tempStatus .valid), .header (.band t.monitor.band), .header (.bank .a .loading t.monitor.band)] ∧
       t.banks.request = some ⟨.a, rawBand s.banks.bounds (raw.toInt / 64), .reading []⟩ ∧
       t.banks.a.state = .loading ∧ t.banks.b = s.banks.b ∧ t.notice = s.notice ∧
       t.admission = (if s.port.partState = .ready then s.admission.trigger else s.admission)) ∧
  (∀ (bounds : List Int) (t : Int),
    rawBand bounds t ≤ 11 ∧ (rawBand bounds t = 0 ∨ 4 * bounds.getD (rawBand bounds t) 0 ≤ t) ∧
    ∀ i, rawBand bounds t < i → i ≤ 11 → t < 4 * bounds.getD i 0) ∧
  (∀ (bounds : List Int) (h t : Int) (b : Nat),
    nextBand bounds h none t = rawBand bounds t ∧
    (b < rawBand bounds (t - h) → nextBand bounds h (some b) t = rawBand bounds (t - h)) ∧
    (rawBand bounds (t - h) ≤ b → rawBand bounds (t + h) < b → nextBand bounds h (some b) t = rawBand bounds (t + h)) ∧
    (rawBand bounds (t - h) ≤ b → b ≤ rawBand bounds (t + h) → nextBand bounds h (some b) t = b) ∧
    nextBand bounds 0 (some b) t = rawBand bounds t) ∧
  ∀ (s : State) (raw : Word), s.monitor.reading = true → s.monitor.held = none → s.monitor.overrideFlag = false →
    -160 ≤ raw.toInt / 64 → raw.toInt / 64 ≤ 340 →
    ∃ t, exec (.sensorReadComplete (.data raw)) s = .next t ∧
      (t.monitor.band = if s.monitor.inUse = some (raw.toInt / 64) then s.monitor.band
        else some (nextBand s.banks.bounds s.cfg.hysteresis s.monitor.band (raw.toInt / 64))) ∧
      (t.monitor.band = s.monitor.band → t.banks = s.banks) ∧
      ∀ band, t.monitor.band = some band → s.monitor.band ≠ some band →
        (∀ target old, s.banks.request = some ⟨target, old, .deferred⟩ →
          t.banks = { s.banks with request := some ⟨target, band, .deferred⟩ }) ∧
        (∀ target old words, s.banks.request = some ⟨target, old, .reading words⟩ →
          t.banks.request = some ⟨target, band, .reading []⟩ ∧
          t.banks.get target = { s.banks.get target with state := .loading, band := some band, entries := #[] } ∧
          t.banks.get target.other = s.banks.get target.other ∧ t.banks.active = s.banks.active ∧
          (s.configured = true → .header (.bank target .loading (some band)) ∈ t.board.queue)) ∧
        ∀ target, s.banks.request = none → (s.banks.get target).refs ≠ 0 →
          (s.banks.active = none ∧ target = BankId.a ∨ s.banks.active = some target.other) →
          t.banks = { s.banks with request := some ⟨target, band, .deferred⟩ }

/-- The stale timer's expiry makes the status INVALID, with TEMPERATURE set, exactly where the last read FAILED and no
override is set, and otherwise moves the timer alone (3.3); the half-life timer's adds 1 to D, wrapping, and moves nothing
else (3.6). -/
def Obligations.MonitorTimersExpire : Prop :=
  (∀ s : State, s.StatusLaw → s.monitor.stale = .running →
    (∀ q, s.monitor.overrideFlag = false → s.monitor.lastGood = some q → s.monitor.lastResult = some .failed →
      exec .staleTimerExpiry s = .next { s with
        monitor := { s.monitor with stale := .expired, status := .invalid, inUse := none },
        notice := { s.notice with temperature := true },
        board := { s.board with queue := s.board.queue ++
          if s.configured then [.header (.tempStatus .invalid)] else [] } }) ∧
    (s.monitor.overrideFlag = true ∨ s.monitor.lastGood = none ∨ s.monitor.lastResult = some .good →
      exec .staleTimerExpiry s = .next { s with monitor := { s.monitor with stale := .expired } })) ∧
  ∀ s : State, s.monitor.halfLifeTimer = true →
    ∃ t, exec .halfLifeExpiry s = .next t ∧ t = { s with monitor := { s.monitor with ticks := t.monitor.ticks } } ∧
      t.monitor.ticks.toNat = (s.monitor.ticks.toNat + 1) % 4294967296

/-- A load that passes every check makes its bank READY with the band and the decoded tables, and active at the same moment;
the board writer is handed the bank and then the active bank, and in READY a pass is triggered. A load that meets a failing
check makes its bank FAILED with the band it tried, records the library error, sets LIBRARY_ERROR and leaves the active bank.
Either spends the load request and keeps the other bank, the reference counts and all other state (2.5). That the command reads
what is left of the band block (notes/assumptions/2.md), and that a failure's bank write waits before its error's
(notes/assumptions/6.md), are the model's choices. -/
def Obligations.LoadsEndReadyOrFailed : Prop :=
  (∀ (s : State) (target : BankId) (band : Nat) (words : List Word) (entries : List Waveform),
     s.configured = true → s.banks.request = some ⟨target, band, .reading words⟩ → words.length ≤ 8704 →
     loadBlock band target
       (bytesOf words ++ s.dram.readBytes (s.cfg.libraryBase + 64 + 17408 * band + 2 * words.length)
         (17408 - 2 * words.length)) = .success entries →
     ∃ t, exec .loadSuccess s = .next t ∧
       t = { s with banks := t.banks,
                    board := { s.board with queue := s.board.queue ++
                      [.header (.bank target .ready (some band)), .header (.activeBank (some target))] },
                    admission := if s.port.partState = .ready then s.admission.trigger else s.admission } ∧
       t.banks.get target =
         { state := .ready, band := some band, entries := entries.toArray, refs := (s.banks.get target).refs } ∧
       t.banks.get target.other = s.banks.get target.other ∧ t.banks.active = some target ∧ t.banks.request = none ∧
       t.banks.libraryError = s.banks.libraryError ∧ t.banks.bounds = s.banks.bounds) ∧
  (∀ (s : State) (target : BankId) (band : Nat) (words : List Word) (e : LibraryError),
     s.configured = true → s.banks.request = some ⟨target, band, .reading words⟩ → words.length ≤ 8704 →
     loadBlock band target
       (bytesOf words ++ s.dram.readBytes (s.cfg.libraryBase + 64 + 17408 * band + 2 * words.length)
         (17408 - 2 * words.length)) = .failure e →
     ∃ t, exec .loadFailure s = .next t ∧
       t = { s with banks := t.banks, notice := { s.notice with libraryError := true },
                    board := { s.board with queue := s.board.queue ++
                      [.header (.bank target .failed (some band)), .header (.libraryError e)] } } ∧
       t.banks.get target =
         { state := .failed, band := some band, entries := #[], refs := (s.banks.get target).refs } ∧
       t.banks.get target.other = s.banks.get target.other ∧ t.banks.active = s.banks.active ∧
       t.banks.request = none ∧ t.banks.libraryError = e ∧ t.banks.bounds = s.banks.bounds)

/-- A load decodes 1,024 entries of 17 bytes in reading order and stops at the first failing check (2.2, 2.3): it succeeds
exactly where every entry passes and some CLEAN entry drives, and then holds each entry's codes of frames 0..ℓ−1; else its
record names the first failing entry, its check in the order length, codes, balance, and the frame, or NO_CLEAN. A load that
has read some words of its band block stops where they hold a check that fails whatever follows; where it goes on, every entry
read whole passes. That a check is made with the word that settles it is the model's reading (notes/assumptions/34.md). -/
def Obligations.LoadsStopAtTheFirstFailingCheck : Prop :=
  (∀ (band : Nat) (bank : BankId) (words : List Word), words.length ≤ 8704 → loadStopped words = true →
    ∃ e, ∀ rest, (bytesOf words ++ rest).length = 17408 → loadBlock band bank (bytesOf words ++ rest) = .failure e) ∧
  ∀ (band : Nat) (bank : BankId) (block : List Byte), block.length = 17408 →
    let len := fun k => (block.getD (17 * k) 0#8).toNat
    let code := fun k f => (block.getD (17 * k + 1 + f / 4) 0#8).toNat / 4 ^ (f % 4) % 4
    let badCode := fun k f => f < len k ∧ code k f = 3
    let balanced := fun k =>
      (List.range (len k)).countP (fun f => code k f == 1) = (List.range (len k)).countP (fun f => code k f == 2)
    let good := fun k => len k ≤ 64 ∧ (∀ f, ¬ badCode k f) ∧ (k < 256 → balanced k)
    (∀ words : List Word, bytesOf words <+: block → loadStopped words = false →
      (∀ k < 1024, 17 * (k + 1) ≤ 2 * words.length → good k) ∧ (17 * 256 ≤ 2 * words.length → ∃ k < 256, 1 ≤ len k)) ∧
    (∀ entries, loadBlock band bank block = .success entries →
      (∀ k < 1024, good k) ∧ (∃ k < 256, 1 ≤ len k) ∧ entries.length = 1024 ∧
      ∀ k < 1024, (entries.getD k []).length = len k ∧
        ∀ f < len k, (entries.getD k [])[f]? =
          some (if code k f = 1 then .raise else if code k f = 2 then .lower else .zero)) ∧
    (∀ e, loadBlock band bank block = .failure e →
      (e = ⟨.noClean, band, bank, 0, 0, 0, 0⟩ ∧ ∀ k < 256, good k ∧ len k = 0) ∨
      ∃ k < 1024, (∀ j < k, good j) ∧ (256 ≤ k → ∃ j < 256, 1 ≤ len j) ∧
        ∃ why frame, e = ⟨why, band, bank, k / 256, k % 256 / 16, k % 16, frame⟩ ∧
          (why = .badLength ∧ 64 < len k ∧ frame = 0 ∨
            why = .badCode ∧ len k ≤ 64 ∧ badCode k frame ∧ (∀ g < frame, ¬ badCode k g) ∨
            why = .unbalanced ∧ len k ≤ 64 ∧ (∀ f, ¬ badCode k f) ∧ k < 256 ∧ ¬ balanced k ∧ frame = 0))

/-! ## The posting board -/

/-- Validation of a posting (4.3): each detail is given exactly where its check fails and no earlier one does, the footprint's
last byte being computed without overflow from the unclipped size; the chapter's worked request and its variants; and the
intake copy's fields are the host half's, by 10.7's layout. -/
def Obligations.PostingsAreReadAndCheckedInOrder : Prop :=
  ((∀ (c : Setup) (i : Intake),
     let mode := i.mode ≤ 3
     let policy := (i.ghostPolicy = 0 ∨ i.ghostPolicy = 1) ∧ (i.conflictPolicy = 0 ∨ i.conflictPolicy = 1)
     let size := i.w ≠ 0 ∧ i.h ≠ 0
     let pitch := i.w ≤ 2 * i.pitch
     let last := i.image + i.pitch * (i.h - 1) + (i.w + 1) / 2 - 1
     let image := 2 ∣ i.image ∧ (c.imageBase ≤ i.image ∧ i.image ≤ c.imageBase + c.imageSize - 1) ∧
       (c.imageBase ≤ last ∧ last ≤ c.imageBase + c.imageSize - 1)
     (malformedBy c i = some .badMode ↔ ¬ mode) ∧
     (malformedBy c i = some .badPolicy ↔ mode ∧ ¬ policy) ∧
     (malformedBy c i = some .zeroSize ↔ mode ∧ policy ∧ ¬ size) ∧
     (malformedBy c i = some .badPitch ↔ mode ∧ policy ∧ size ∧ ¬ pitch) ∧
     (malformedBy c i = some .badImage ↔ mode ∧ policy ∧ size ∧ pitch ∧ ¬ image) ∧
     (malformedBy c i = none ↔ mode ∧ policy ∧ size ∧ pitch ∧ image)) ∧
   (∀ c : Setup, c.imageBase = 0x01000000 → c.imageSize = 0x00100000 →
     ∀ i : Intake, i.mode ≤ 3 → i.ghostPolicy ≤ 1 → i.conflictPolicy ≤ 1 → i.w = 321 → i.h = 40 →
       (i.pitch = 160 → malformedBy c i = some .badPitch) ∧
       (i.pitch = 162 → i.image = 0x010FCE00 → malformedBy c i = none) ∧
       (i.pitch = 162 → i.image = 0x010FFE00 → malformedBy c i = some .badImage))) ∧
  (∀ (m : Memory) (a : Nat), m.wf = true →
     let b := fun o => (m.read (a + o)).toNat
     let w := fun o => b o + 256 * b (o + 1)
     let i := Intake.decode (m.readBytes a 32)
     i.postCount = m.read a ∧ i.mark = m.read (a + 1) ∧ i.mode = b 2 ∧ i.ghostPolicy + 16 * i.conflictPolicy = b 3 ∧
     i.ghostPolicy < 16 ∧ i.waitLimit = w 4 ∧ i.x = w 6 ∧ i.y = w 8 ∧ i.w = w 10 ∧ i.h = w 12 ∧ i.tag.toNat = w 14 ∧
     i.image = w 16 + 65536 * w 18 ∧ i.pitch = w 20)

/-- A scan reads the board and writes nothing to DRAM; it visits each of the 64 slots once and acts by 4.3's table on the
slot's words, seen count and status: a posting is taken with its copy and finished or appended, a marked waiting request is
finished, and every other slot keeps its record. A withdraw ends an examination of its request, which keeps the flags and the
score set so far (6.5), and reaches a RUNNING lane until its close hands the outcome (7.4). So a scan that has not visited a
slot yet reads what is left of the override words, the value and then the flag (3.4), and walks all 64 slots; one that HALT has
found without them reads them and visits none; and one in progress goes on with the slots it has not visited, where it makes
the copy of a take with that take, of which some words have been read; the scan that HALT has found at a slot ends with it,
with its take or with the withdraw found, which is handed on by the slot's status. That a scan found without its override words
reads them and visits none, and that the visit or the withdraw of the slot found is left to SCAN, are the model's choices
(notes/assumptions/23.md). A trigger that came meanwhile starts the further scan, at the cursor, once this one ends. In HALTING
and HALTED a take that passes its checks finishes its slot HALTED and appends nothing. A posting's first word is read once, for
the visit and for its copy (notes/assumptions/33.md). -/
def Obligations.ScanActsOnEverySlotByItsTable : Prop :=
  let take := fun (s t : State) (i : Fin 64) (posting : Intake) =>
    let count := posting.postCount
    let finished := fun outcome => t.slot i = ⟨count, .finished, some posting⟩ ∧
      ∃ f, .finish f ∈ t.board.queue ∧ f = Finish.refusal i count posting.tag outcome Flags.none none 0
    (posting.mark = count → finished .withdrawnAtTake) ∧
    (∀ why, posting.mark ≠ count → malformedBy s.cfg posting = some why → finished (.malformed why)) ∧
    (posting.mark ≠ count → malformedBy s.cfg posting = none →
      (s.port.partState = .ready → t.slot i = ⟨count, .waiting, some posting⟩ ∧ .waiting i count ∈ t.board.queue ∧
        Waiting.new i posting ∈ t.admission.list) ∧
      (s.port.partState ≠ .ready → finished .halted))
  let withdrawn := fun (s t : State) (i : Fin 64) =>
    (∀ e ∈ s.admission.list, e.slot = i → (s.slot i).status = .waiting →
      t.slot i = { s.slot i with status := .finished } ∧ (∀ k ∈ t.admission.list, k.slot ≠ i) ∧
      (∀ x, t.admission.exam = some x → x.slot ≠ i) ∧
      ∃ f, .finish f ∈ t.board.queue ∧ f.slot = i ∧ f.seen = (s.slot i).seen ∧ f.outcome = .withdrawnWhileWaiting ∧
        f.lane = none ∧ f.mode = none ∧
        ((s.admission.list.map Waiting.slot).Nodup → f.flags = e.flags ∧ f.score = e.score)) ∧
    ∀ n, (s.slot i).status = .running → (s.lane n).state ≠ .free → (s.lane n).slot = i →
      (∀ k, (s.lane k).state ≠ .free → (s.lane k).slot = i → k = n) →
      ((s.lane n).state ≠ .closing ∨ n ∈ s.closing → t.lane n = { s.lane n with withdrawLate := true }) ∧
      ((s.lane n).state = .closing → n ∉ s.closing → t.lane n = s.lane n)
  let visit := fun (s t : State) (i : Fin 64) =>
    let at_ := s.cfg.boardBase + 256 + 64 * i.val
    let count := s.dram.read at_
    let mark := s.dram.read (at_ + 1)
    let free := (s.slot i).status = .idle ∨ (s.slot i).status = .finished
    (free → count = (s.slot i).seen → t.slot i = s.slot i) ∧
    (free → count ≠ (s.slot i).seen → take s t i (Intake.decode (s.dram.readBytes at_ 32))) ∧
    ((s.slot i).status = .waiting → mark ≠ (s.slot i).seen → t.slot i = s.slot i) ∧
    ((s.slot i).status = .running → t.slot i = s.slot i) ∧
    (mark = (s.slot i).seen → withdrawn s t i)
  let ended := fun (s t : State) => t.board.scanDue = false ∧
    t.board.scan = if s.board.scanDue = true ∧ s.port.partState = .ready then
      some ⟨t.board.cursor, 0, false, none, false, false, none⟩ else none
  let opens := fun (s t : State) (k : Scan) =>
    t.monitor.overrideValue = (k.held.getD (s.dram.readWord s.cfg.boardBase)).toInt ∧
    t.monitor.overrideFlag = (s.dram.readWord (s.cfg.boardBase + 2)).getLsbD 0
  (∀ (s : State) (first : Fin 64) (held : Option Word), s.dram.wf = true → s.port.partState = .ready →
    s.board.scan = some ⟨first, 0, false, none, false, false, held⟩ →
    ∃ t, exec .scan s = .next t ∧ ended s t ∧ opens s t ⟨first, 0, false, none, false, false, held⟩ ∧
      t = { s with monitor := t.monitor, notice := t.notice, banks := t.banks, board := t.board, lanes := t.lanes,
                   admission := t.admission } ∧
      ∀ i : Fin 64, visit s t i) ∧
  (∀ (s : State) (k : Scan), s.board.scan = some k → k.opened = false → 64 ≤ k.visited →
    ∃ t, exec .scan s = .next t ∧ ended s t ∧ opens s t k ∧
      t = { s with monitor := t.monitor, notice := t.notice, banks := t.banks, board := t.board,
                   admission := t.admission } ∧
      t.board.slots = s.board.slots ∧ t.board.cursor = s.board.cursor ∧
      (s.port.partState ≠ .ready → t.admission = s.admission)) ∧
  ∀ (s : State) (k : Scan), s.dram.wf = true → s.board.scan = some k → k.opened = true →
    (∀ words, k.copy = some words → words.length ≤ 16) →
    ∃ t, exec .scan s = .next t ∧ ended s t ∧
      t = { s with board := t.board, lanes := t.lanes, admission := t.admission } ∧
      (s.port.partState ≠ .ready → k.ending = true → k.copy ≠ none → t.admission = s.admission ∧ t.lanes = s.lanes) ∧
      ∀ i : Fin 64,
        let at_ := s.cfg.boardBase + 256 + 64 * i.val
        let place := (i - k.first).val
        (place < k.visited → t.slot i = s.slot i) ∧
        (∀ words, place = k.visited → k.copy = some words →
          take s t i (Intake.decode
            (bytesOf words ++ s.dram.readBytes (at_ + 2 * words.length) (2 * (16 - words.length))))) ∧
        (place = k.visited → k.copy = none → k.ending = true →
          withdrawn s t i ∧ ((s.slot i).status ≠ .waiting → t.slot i = s.slot i)) ∧
        (place = k.visited → k.copy = none → k.ending = false → visit s t i) ∧
        (k.visited < place → k.ending = true → t.slot i = s.slot i) ∧
        (k.visited < place → k.ending = false → visit s t i)

/-- A scan keeps the order of the pending list (6.1, 4.3): the entries not withdrawn stay in their order, and the postings
appended follow in the order of the walk, which begins at the cursor as the scan's start found it. The cursor becomes the slot
after the last one taken, or stays; and a scan that appended or withdrew a request triggers a pass, which starts at the front,
with every request still to be examined, or during a pass is the further one. -/
def Obligations.ScanKeepsTheTakeOrder : Prop :=
  ∀ (s : State) (first : Fin 64) (held : Option Word), s.dram.wf = true → s.port.partState = .ready →
    s.board.scan = some ⟨first, 0, false, none, false, false, held⟩ →
    let count := fun i : Fin 64 => s.dram.read (s.cfg.boardBase + 256 + 64 * i.val)
    let mark := fun i : Fin 64 => s.dram.read (s.cfg.boardBase + 256 + 64 * i.val + 1)
    let posting := fun i : Fin 64 => Intake.decode (s.dram.readBytes (s.cfg.boardBase + 256 + 64 * i.val) 32)
    let taken := fun i : Fin 64 => decide (((s.slot i).status = .idle ∨ (s.slot i).status = .finished) ∧
      count i ≠ (s.slot i).seen)
    let joins := fun i : Fin 64 => taken i && decide (mark i ≠ count i ∧ malformedBy s.cfg (posting i) = none)
    let leaves := fun e : Waiting => decide ((s.slot e.slot).status = .waiting ∧ mark e.slot = (s.slot e.slot).seen)
    let walk := (List.finRange 64).map fun i => first + i
    let after := s.admission.list.filter (fun e => !leaves e) ++
      (walk.filter joins).map (fun i => Waiting.new i (posting i))
    ∃ t, exec .scan s = .next t ∧
      t.admission.list.map (fun e => { e with examined := false }) = after.map (fun e => { e with examined := false }) ∧
      (s.admission.passActive = true → t.admission.list = after ∧ t.admission.passActive = true) ∧
      t.board.cursor = (match (walk.filter taken).getLast? with
        | some i => i + 1
        | none => s.board.cursor) ∧
      ((∃ i, joins i = true) ∨ (∃ e ∈ s.admission.list, leaves e = true) →
        (s.admission.passActive = true → t.admission.passDue = true) ∧
        (s.admission.passActive = false → after ≠ [] →
          t.admission.passActive = true ∧ ∀ e ∈ t.admission.list, e.examined = false))

/-- A pending request whose deadline expires is removed and finished TIMED_OUT with its record's flags and score, one TIMEOUTS
event is counted, and a pass is triggered (6.4); an examination of the request ends there, and what it has written of the
ledger stands. The HALT flush finishes every pending request HALTED, from the front to the end, with the pending count falling
step by step to 0, once no pass is in progress; HALTED is entered at once where no lane is out of FREE (6.6, 10.4). Between
two commands the flush goes on by one request, and however many it has finished so, HALT_FLUSH comes to the same; before the
pass has ended, and outside HALTING, nothing is flushed. Nothing else moves. That the count is handed before the finish is the
model's choice (notes/assumptions/6.md). -/
def Obligations.DeadlinesAndTheFlushFinishPendingRequests : Prop :=
  (∀ (s : State) (e : Waiting) (limit : Nat), s.configured = true → e ∈ s.admission.list →
     (s.admission.list.map Waiting.slot).Nodup → e.deadline = some limit →
     ∃ t, exec (.deadlineExpiry e.slot) s = .next t ∧
       t = { s with admission := t.admission, board := t.board, tally := t.tally } ∧
       ((∀ x, s.admission.exam = some x → x.slot ≠ e.slot) →
         let left := { s.admission with list := s.admission.list.filter (fun k => k.slot != e.slot) }
         t.admission = if s.port.partState = .ready then left.trigger else left) ∧
       (∀ x, s.admission.exam = some x → x.slot = e.slot →
         let left := { s.admission with list := s.admission.list.filter (fun k => k.slot != e.slot), exam := none }
         t.admission = if s.port.partState = .ready then left.trigger else { left with passActive := false }) ∧
       t.slot e.slot = { s.slot e.slot with status := .finished } ∧ (∀ i, i ≠ e.slot → t.slot i = s.slot i) ∧
       t.board.queue = s.board.queue ++
         [.header (.pendingCount (s.admission.list.length - 1)),
           .finish { slot := e.slot, seen := (s.slot e.slot).seen, outcome := .timedOut, flags := e.flags, mode := none,
                     lane := none, startFrame := 0, endFrame := 0, driven := 0, leftUnknown := 0, score := e.score,
                     tag := (s.intake e.slot).tag }] ∧
       t.board.cursor = s.board.cursor ∧ t.board.completion = s.board.completion ∧ t.tally.stamp = s.tally.stamp ∧
       ∀ i : Fin 4,
         t.tally.counters[i] =
           if s.tally.counters[i].config.enable = true ∧ s.tally.counters[i].config.select = 5 ∧
               (s.tally.counters[i].config.freeze = true → s.rails.state ≠ .fault) then
             { s.tally.counters[i] with value := s.tally.counters[i].value + 1 }
           else s.tally.counters[i]) ∧
  (∀ s : State, s.port.partState = .halting → s.admission.flushDue = true → s.admission.passActive = false →
     s.admission.exam = none → (s.admission.list.map Waiting.slot).Nodup →
     ∃ t, exec .haltFlush s = .next t ∧ t.admission = { s.admission with list := [], flushDue := false } ∧
       t = { s with admission := t.admission, board := t.board, port := t.port, notice := t.notice } ∧
       (∀ e ∈ s.admission.list, t.slot e.slot = { s.slot e.slot with status := .finished }) ∧
       (∀ i, (∀ e ∈ s.admission.list, e.slot ≠ i) → t.slot i = s.slot i) ∧
       t.board.queue = s.board.queue ++
         ((s.admission.list.mapIdx fun k e =>
           [.header (.pendingCount (s.admission.list.length - 1 - k)),
             .finish { slot := e.slot, seen := (s.slot e.slot).seen, outcome := .halted, flags := e.flags, mode := none,
                       lane := none, startFrame := 0, endFrame := 0, driven := 0, leftUnknown := 0, score := e.score,
                       tag := (s.intake e.slot).tag }]).flatten ++
           if s.lanesOut = 0 then [.header (.partState .halted)] else []) ∧
       (s.lanesOut = 0 → t.port = { s.port with partState := .halted } ∧ t.notice = { s.notice with halted := true }) ∧
         (s.lanesOut ≠ 0 → t.port = s.port ∧ t.notice = s.notice)) ∧
  (∀ (s : State) (e : Waiting) (rest : List Waiting), s.port.partState = .halting → s.admission.flushDue = true →
     s.admission.passActive = false → s.admission.exam = none → s.admission.list = e :: rest →
     (s.admission.list.map Waiting.slot).Nodup →
     let t := flushTick s
     t = { s with admission := { s.admission with list := rest }, board := t.board } ∧
       t.board = { s.board with slots := t.board.slots, queue := s.board.queue ++
         [.header (.pendingCount rest.length),
           .finish { slot := e.slot, seen := (s.slot e.slot).seen, outcome := .halted, flags := e.flags, mode := none,
                     lane := none, startFrame := 0, endFrame := 0, driven := 0, leftUnknown := 0, score := e.score,
                     tag := (s.intake e.slot).tag }] } ∧
       t.slot e.slot = { s.slot e.slot with status := .finished } ∧ (∀ i, i ≠ e.slot → t.slot i = s.slot i) ∧
       exec .haltFlush t = exec .haltFlush s) ∧
  ∀ s : State, s.port.partState ≠ .halting ∨ s.admission.flushDue = false ∨ s.admission.passActive = true →
    flushTick s = s ∧ exec .haltFlush s = .next s

/-- The board writer performs the write at the front of its queue whole (4.4): a header field's bytes at its offset from the
board base, the WAITING word, or the RUNNING write; every other byte and all other state stay. And each header field's offset
and bytes are those of 10.7's layout, low byte first, 0xFF for none; a publication of the tally is one write of the four
counters and the stamp (notes/assumptions/30.md: the model's reading). -/
def Obligations.BoardWritesPutEachFieldInItsPlace : Prop :=
  (∀ (s : State) (rest : List BoardRequest),
     (∀ w, s.board.queue = .header w :: rest →
       ∃ t, exec .boardWrite s = .next t ∧ t = { s with board := { s.board with queue := rest }, dram := t.dram } ∧
         (∀ i < w.bytes.2.length, t.dram.read (s.cfg.boardBase + w.bytes.1 + i) = w.bytes.2.getD i 0) ∧
         ∀ a, a < s.cfg.boardBase + w.bytes.1 ∨ s.cfg.boardBase + w.bytes.1 + w.bytes.2.length ≤ a →
           t.dram.read a = s.dram.read a) ∧
     (∀ slot seen, s.board.queue = .waiting slot seen :: rest →
       ∃ t, exec .boardWrite s = .next t ∧ t = { s with board := { s.board with queue := rest }, dram := t.dram } ∧
         let half := s.cfg.boardBase + 256 + 64 * slot.val + 32
         t.dram.read half = seen ∧ t.dram.read (half + 1) = 1 ∧
         ∀ a, a ≠ half → a ≠ half + 1 → t.dram.read a = s.dram.read a) ∧
     (∀ slot seen mode lane, s.board.queue = .running slot seen mode lane :: rest →
       ∃ t, exec .boardWrite s = .next t ∧ t = { s with board := { s.board with queue := rest }, dram := t.dram } ∧
         let half := s.cfg.boardBase + 256 + 64 * slot.val + 32
         t.dram.read half = seen ∧ t.dram.read (half + 1) = 2 ∧
         t.dram.read (half + 6) = (match mode with | .clean => 0 | .gray => 1 | .quick => 2 | .ink => 3) ∧
         (t.dram.read (half + 7)).toNat = lane.val ∧
         ∀ a, a ≠ half → a ≠ half + 1 → a ≠ half + 6 → a ≠ half + 7 → t.dram.read a = s.dram.read a)) ∧
  (let four := fun n : DWord => [n.extractLsb' 0 8, n.extractLsb' 8 8, n.extractLsb' 16 8, n.extractLsb' 24 8]
   (∀ n, (HeaderWrite.frameNumber n).bytes = (36, four n)) ∧
   (∀ (v : Vector DWord 4) n,
     (HeaderWrite.tally v n).bytes = (100, four v[0] ++ four v[1] ++ four v[2] ++ four v[3] ++ four n)) ∧
   (∀ t : Int, -32768 ≤ t → t ≤ 32767 → ∃ lo hi : Byte, (HeaderWrite.temperature t).bytes = (42, [lo, hi]) ∧
     (hi ++ lo).toInt = t) ∧
   (∀ n < 256, (HeaderWrite.pendingCount n).bytes = (62, [BitVec.ofNat 8 n]) ∧
     (HeaderWrite.lanesInUse n).bytes = (63, [BitVec.ofNat 8 n]) ∧
     (HeaderWrite.band (some n)).bytes = (45, [BitVec.ofNat 8 n])) ∧
   (HeaderWrite.band none).bytes = (45, [0xFF#8]) ∧ (HeaderWrite.activeBank none).bytes = (50, [0xFF#8]) ∧
   (HeaderWrite.activeBank (some .a)).bytes = (50, [0#8]) ∧ (HeaderWrite.activeBank (some .b)).bytes = (50, [1#8]) ∧
   (∀ a < 4294967296, ∃ w : DWord, w.toNat = a ∧ (HeaderWrite.blockedAddress a).bytes = (64, four w)) ∧
   (∀ row ∈ [(PartState.unconfigured, 0#8), (.configuring, 1#8), (.ready, 2#8), (.halting, 3#8), (.halted, 4#8)],
     (HeaderWrite.partState row.1).bytes = (40, [row.2])) ∧
   (∀ row ∈ [(TempStatus.none, 0#8), (.valid, 1#8), (.held, 2#8), (.invalid, 3#8), (.override, 4#8)],
     (HeaderWrite.tempStatus row.1).bytes = (44, [row.2])) ∧
   (∀ row ∈ [(BankState.empty, 0#8), (.loading, 1#8), (.ready, 2#8), (.failed, 3#8)],
     (HeaderWrite.bank .a row.1 none).bytes = (46, [row.2, 0xFF#8]) ∧
     (HeaderWrite.bank .b row.1 none).bytes = (48, [row.2, 0xFF#8]) ∧
     ∀ n < 256, (HeaderWrite.bank .a row.1 (some n)).bytes = (46, [row.2, BitVec.ofNat 8 n]) ∧
       (HeaderWrite.bank .b row.1 (some n)).bytes = (48, [row.2, BitVec.ofNat 8 n])) ∧
   (∀ row ∈ [(RailState.off, 0#8), (.rising, 1#8), (.on, 2#8), (.falling, 3#8), (.fault, 4#8)],
     (HeaderWrite.railState row.1).bytes = (60, [row.2])) ∧
   (∀ row ∈ [(RailCause.none, 0#8), (.riseTimeout, 1#8), (.railDrop, 2#8), (.supplyAlert, 3#8)],
     (HeaderWrite.railCause row.1).bytes = (61, [row.2])) ∧
   (∀ row ∈ [(LinkState.down, 0#8), (.up, 1#8), (.faulted, 2#8), (.training, 3#8)],
     ∀ (k : Fin 4) (window : Nat) (total : DWord), window < 65536 →
       (HeaderWrite.segment k row.1 window total).bytes =
         (68 + 8 * k.val, [row.2, 0#8, BitVec.ofNat 8 (window % 256), BitVec.ofNat 8 (window / 256)] ++ four total)) ∧
   ∀ row ∈ [(LibraryCode.none, 0#8), (.badLength, 1#8), (.badCode, 2#8), (.unbalanced, 3#8), (.noClean, 4#8)],
     ∀ band mode from_ to_ frame : Nat, ∀ bank : BankId,
       (HeaderWrite.libraryError ⟨row.1, band, bank, mode, from_, to_, frame⟩).bytes =
         (52, [row.2, BitVec.ofNat 8 band, if bank = .a then 0#8 else 1#8, BitVec.ofNat 8 mode, BitVec.ofNat 8 from_,
           BitVec.ofNat 8 to_, BitVec.ofNat 8 frame, 0#8]))

/-- A finish makes its three writes: every outcome field at its place in the part half, the status word FINISHED with the
request's seen count, and the completion count raised by 1; the intake copy is released. Every other byte stays, and, for a
request that no lane carries, all other state (4.4). FINISH makes what is left of the three: the outcome words from the first
not written yet on, or the count alone once the status word stands (notes/assumptions/7.md). A lane's return may let the rails
act; that they fault on a still asserted alert is ruled out by the premise of the clause about bytes. The outcome fields have
10.7's layout from offset 2: code and detail, flags, mode and lane or 0xFF, start and end frame, the counts, the score and the
tag. -/
def Obligations.FinishesWriteOutcomeStatusAndCount : Prop :=
  (∀ (s : State) (rest : List BoardRequest),
     let count := s.board.completion + 1
     (∀ f, s.board.queue = .finish f :: rest →
       let half := s.cfg.boardBase + 256 + 64 * f.slot.val + 32
       ∃ t, exec .finish s = .next t ∧
         t.board.completion = count ∧ t.notice.kept = count.setWidth 16 ∧
         (f.lane = none ∨ s.pins.alert = false →
           t.dram.read half = f.seen ∧ t.dram.read (half + 1) = 3 ∧
           (∀ i < 26, t.dram.read (half + 2 + i) =
             if 2 * s.board.written ≤ i then f.outcomeBytes.getD i 0 else s.dram.read (half + 2 + i)) ∧
           f.outcomeBytes.length = 26 ∧
           (∀ i < 4, t.dram.read (s.cfg.boardBase + 32 + i) = count.extractLsb' (8 * i) 8) ∧
           (∀ a, (a < half ∨ half + 28 ≤ a) → (a < s.cfg.boardBase + 32 ∨ s.cfg.boardBase + 36 ≤ a) →
             t.dram.read a = s.dram.read a)) ∧
         (f.lane = none →
           t = { s with dram := t.dram, board := t.board, notice := { s.notice with kept := count.setWidth 16 } } ∧
           t.board = { s.board with queue := rest, written := 0, completion := count, slots := t.board.slots } ∧
           (∀ i, i ≠ f.slot → t.slot i = s.slot i) ∧
           ((s.slot f.slot).status = .finished → (s.slot f.slot).seen = f.seen →
             t.slot f.slot = { s.slot f.slot with intake := none }))) ∧
     (s.board.queue = .completion :: rest →
       ∃ t, exec .finish s = .next t ∧
         t = { s with board := { s.board with queue := rest, written := 0, completion := count }, dram := t.dram,
                      notice := { s.notice with kept := count.setWidth 16 } } ∧
         (∀ i < 4, t.dram.read (s.cfg.boardBase + 32 + i) = count.extractLsb' (8 * i) 8) ∧
         ∀ a, a < s.cfg.boardBase + 32 ∨ s.cfg.boardBase + 36 ≤ a → t.dram.read a = s.dram.read a)) ∧
  (∀ f : Finish, f.driven < 4294967296 → f.leftUnknown < 4294967296 → f.score < 65536 →
     let b := fun i => f.outcomeBytes.getD i 0
     let d := fun i => (b (i + 3) ++ b (i + 2)) ++ (b (i + 1) ++ b i)
     ((b 0).toNat, (b 1).toNat) =
       (match f.outcome with
         | .done => (1, 0) | .withdrawnAtTake => (2, 1) | .withdrawnWhileWaiting => (2, 2)
         | .malformed .badMode => (3, 1) | .malformed .badPolicy => (3, 2) | .malformed .zeroSize => (3, 3)
         | .malformed .badPitch => (3, 4) | .malformed .badImage => (3, 5)
         | .nothingToDo => (4, 0) | .conflict => (5, 0)
         | .railsDown .none => (6, 0) | .railsDown .riseTimeout => (6, 1) | .railsDown .railDrop => (6, 2)
         | .railsDown .supplyAlert => (6, 3)
         | .segmentFault k => (7, k.val) | .noTemperature => (8, 0) | .modeAbsent => (9, 0) | .timedOut => (10, 0)
         | .halted => (11, 0) | .brokenByRails => (12, 4) | .brokenBySegment k => (12, k.val)) ∧
     ((b 2).getLsbD 0, (b 2).getLsbD 1, (b 2).getLsbD 2, (b 2).getLsbD 3) =
       (f.flags.clipped, f.flags.rounded, f.flags.promoted, f.flags.forcedClean) ∧
     ((b 2).getLsbD 4, (b 2).getLsbD 5, (b 2).getLsbD 6, (b 2).getLsbD 7) =
       (f.flags.ghostRisk, f.flags.withdrawLate, f.flags.coldClamp, f.flags.hotClamp) ∧
     b 3 = 0 ∧
     b 4 = (match f.mode with
       | none => 0xFF | some .clean => 0 | some .gray => 1 | some .quick => 2 | some .ink => 3) ∧
     (b 5).toNat = (match f.lane with | none => 255 | some n => n.val) ∧
     d 6 = f.startFrame ∧ d 10 = f.endFrame ∧ (d 14).toNat = f.driven ∧ (d 18).toNat = f.leftUnknown ∧
     (b 23 ++ b 22).toNat = f.score ∧ b 25 ++ b 24 = f.tag)

/-- A lane comes back to FREE when the board writer writes FINISHED for it (7.4, 7.1): in that step the lane is FREE, its
bank's count falls by 1, a pass is triggered in READY, which starts it or sets the further-pass flag, the header's count and
the rails' busy notice follow in the same step (notes/assumptions/36.md: the model's choice), and, where it was the last lane
of a part whose flush has ended, the part is HALTED. A count that comes to 0 starts the load deferred for the bank, from
nothing, and hands the bank's LOADING (2.5), before the number of lanes by the model's choice (notes/assumptions/6.md); any
other request, and the rest of the bank unit, stay. RETURN_TO_FREE makes it with the finish's first two writes and leaves the
third; FINISH makes all three (notes/assumptions/7.md). -/
def Obligations.LanesReturnWithTheirFinish : Prop :=
  ∀ (s : State) (f : Finish) (n : Fin 32) (rest : List BoardRequest), s.board.queue = .finish f :: rest →
    f.lane = some n →
    ∀ c : Instr, c = .finish ∨ c = .returnToFree →
      ∃ t, exec c s = .next t ∧ (t.lane n).state = .free ∧
        (∀ k, k ≠ n → ((t.lane k).state = .free ↔ (s.lane k).state = .free)) ∧
        (t.slot (s.lane n).slot).status = .finished ∧
        (t.banks.get (s.lane n).bank).refs = (s.banks.get (s.lane n).bank).refs - 1 ∧
        (t.banks.get (s.lane n).bank.other).refs = (s.banks.get (s.lane n).bank.other).refs ∧
        (let bank := (s.lane n).bank
         (∀ band, s.banks.request = some ⟨bank, band, .deferred⟩ → (s.banks.get bank).refs ≤ 1 →
           t.banks.request = some ⟨bank, band, .reading []⟩ ∧
           t.banks.get bank = { state := .loading, band := some band, entries := #[], refs := 0 } ∧
           (s.configured = true → ∃ more, t.board.queue =
             (if c = .finish then rest else .completion :: rest) ++ .header (.bank bank .loading (some band)) ::
               .header (.lanesInUse t.lanesOut) :: more)) ∧
         ((∀ band, s.banks.request ≠ some ⟨bank, band, .deferred⟩) ∨ 1 < (s.banks.get bank).refs →
           t.banks.request = s.banks.request ∧
           t.banks.get bank = { s.banks.get bank with refs := (s.banks.get bank).refs - 1 }) ∧
         t.banks.get bank.other = s.banks.get bank.other ∧ t.banks.active = s.banks.active ∧
         t.banks.libraryError = s.banks.libraryError) ∧
        (s.port.partState = .ready →
          (s.admission.passActive = true → t.admission.passDue = true) ∧
          (s.admission.passActive = false → s.admission.list ≠ [] →
            t.admission.passActive = true ∧ ∀ e ∈ t.admission.list, e.examined = false)) ∧
        t.rails.lanesBusy = decide (0 < t.lanesOut) ∧
        (s.configured = true → .header (.lanesInUse t.lanesOut) ∈ t.board.queue) ∧
        (s.port.partState = .halting → s.admission.flushDue = false →
          (t.lanesOut = 0 ↔ t.port.partState = .halted) ∧ (t.lanesOut = 0 → t.notice.halted = true)) ∧
        (c = .returnToFree → t.board.completion = s.board.completion ∧ t.board.queue.head? = some .completion)

/-- Between two commands each operation in progress goes on by one piece (notes/assumptions/2.md), here each while no other is
in progress. A finish writes its next outcome word; after the last one, where no lane carries the request, the status word
FINISHED, its intake copy released, with the count still to be raised; then the count's low word (R68). A copy reads its next
word as it stands (R63), and a slot with a new posting begins one and moves the cursor on (R62), once the scan has read the
override words, the value and then the flag, as each stands (R66, R51), with which one that HALT has found before ends
(23.md); but the visit that HALT has left to a scan is SCAN's, by the model's choice (23.md). The fetch takes one pixel, so
that nothing else of DRAM moves (R90). START reads its next word (R165), and so does a load, up to its end or its first
failing check (R30, R31), and the start of a sensor read makes what is left of its own (R46). The admission unit makes one
step, the flush of HALT finishes one request, a close carries one tile or hands its outcome, and the stream works out one
pixel's code, as the statements on them say. That the outcome's words, and START's, come in rising order
(notes/assumptions/7.md, 29.md), that a pixel is one step (20.md) and that a posting's first word is read once (33.md) are the
model's too. With nothing in progress the part idles. -/
def Obligations.WorkInProgressGoesOnWordByWord : Prop :=
  ∀ s : State,
    let noStart := ∀ words, s.start ≠ .reading words
    let noLoad := ∀ target band words, s.banks.request ≠ some ⟨target, band, .reading words⟩
    let noRead := s.monitor.held = none
    let noScan := s.board.scan = none
    let noFetch := s.admission.fetch = none
    let noPass := s.admission.fetch.isSome = true ∨ s.admission.exam = none ∧
      (s.port.partState ≠ .ready ∨ s.admission.passActive = false)
    let noFlush := s.port.partState ≠ .halting ∨ s.admission.flushDue = false ∨ s.admission.passActive = true ∨
      s.admission.list = []
    let noClose := s.closing = [] ∧ s.streaming = false
    let noFinish := (∀ f rest, s.board.queue ≠ .finish f :: rest) ∧ ∀ rest, s.board.queue ≠ .completion :: rest
    (noStart → noLoad → noRead → noScan → noFetch → noPass → noFlush → noClose → noFinish → backgroundTick s = s) ∧
    (∀ words, s.start = .reading words → words.length < 42 →
      noLoad → noRead → noScan → noFetch → noPass → noFlush → noClose → noFinish →
      backgroundTick s = { s with start := .reading (words ++ [s.dram.readWord (startAddress words)]) }) ∧
    (∀ target band words, s.banks.request = some ⟨target, band, .reading words⟩ → words.length < 8704 →
      noStart → noRead → noScan → noFetch → noPass → noFlush → noClose → noFinish →
      (loadStopped words = true → backgroundTick s = s) ∧
      (loadStopped words = false →
        backgroundTick s = { s with banks := { s.banks with request := some ⟨target, band, .reading
          (words ++ [s.dram.readWord (s.cfg.libraryBase + 64 + 17408 * band + 2 * words.length)])⟩ } })) ∧
    (∀ k, s.board.scan = some k → k.opened = false →
      let t := scanTick s
      (k.held = none → t = { s with board := { s.board with
        scan := some { k with held := some (s.dram.readWord s.cfg.boardBase) } } }) ∧
      ∀ value, k.held = some value →
        t = { s with monitor := t.monitor, notice := t.notice, banks := t.banks, board := t.board,
                     admission := t.admission } ∧
        t.monitor.overrideValue = value.toInt ∧
        t.monitor.overrideFlag = (s.dram.readWord (s.cfg.boardBase + 2)).getLsbD 0 ∧
        (k.ending = false →
          t.board = { s.board with scan := some { k with opened := true, held := none }, queue := t.board.queue }) ∧
        (k.ending = true →
          t.board = { s.board with
            scan := if s.board.scanDue = true ∧ s.port.partState = .ready then
              some ⟨s.board.cursor, 0, false, none, false, false, none⟩ else none,
            scanDue := false, queue := t.board.queue })) ∧
    (∀ k, s.board.scan = some k → k.opened = true → k.visited < 64 →
      noStart → noLoad → noRead → noFetch → noPass → noFlush → noClose → noFinish →
      let at_ := s.cfg.boardBase + 256 + 64 * k.slot.val
      (∀ words, k.copy = some words → words.length < 16 →
        backgroundTick s = { s with board := { s.board with
          scan := some { k with copy := some (words ++ [s.dram.readWord (at_ + 2 * words.length)]) } } }) ∧
      (k.copy = none → k.ending = true → backgroundTick s = s) ∧
      (k.copy = none → k.ending = false → (s.slot k.slot).status = .idle ∨ (s.slot k.slot).status = .finished →
        (s.dram.read at_ ≠ (s.slot k.slot).seen →
          backgroundTick s = { s with board := { s.board with
            cursor := k.slot + 1, scan := some { k with copy := some [s.dram.readWord at_] } } }) ∧
        (s.dram.read at_ = (s.slot k.slot).seen →
          backgroundTick s = { s with board := { s.board with scan := some { k with visited := k.visited + 1 } } }))) ∧
    (∀ f, s.admission.fetch = some f → f.position < (s.lane f.lane).rect.w * (s.lane f.lane).rect.h →
      noStart → noLoad → noRead → noScan → noFlush → noClose → noFinish →
      let r := (s.lane f.lane).rect
      let x := r.x + f.position % r.w
      let y := r.y + f.position / r.w
      let t := backgroundTick s
      t = { s with dram := t.dram, lanes := t.lanes, admission := t.admission } ∧
      (∃ image, t.admission = { s.admission with fetch := some ⟨f.lane, f.position + 1, some image⟩ }) ∧
      (∀ k, k ≠ f.lane → t.lane k = s.lane k) ∧
      ∀ a, (a < s.cfg.planeBase + 2 * (y * s.cfg.width + x) ∨ s.cfg.planeBase + 2 * (y * s.cfg.width + x) + 2 ≤ a) →
        (a < scratchAddress s.cfg f.lane (x / 16) (y / 16) ∨ scratchAddress s.cfg f.lane (x / 16) (y / 16) + 4 ≤ a) →
        t.dram.read a = s.dram.read a) ∧
    (noStart → noLoad →
      backgroundTick s = boardTick (streamTick (closeTick (flushTick (passTick (fetchTick (scanTick (readTick s))))))) ∧
      (noRead → readTick s = s)) ∧
    (noStart → noLoad → noRead → noScan → noFetch →
      backgroundTick s = boardTick (streamTick (closeTick (flushTick (passTick s)))) ∧ (noPass → passTick s = s) ∧
      (noFlush → flushTick s = s) ∧
      (s.closing = [] → closeTick s = s) ∧ (s.streaming = false → streamTick s = s) ∧
      (noFinish → boardTick s = s)) ∧
    (noStart → noLoad → noRead → noScan → noFetch → noPass → noFlush → noClose →
      (∀ f rest, s.board.queue = .finish f :: rest →
        let half := s.cfg.boardBase + 256 + 64 * f.slot.val + 32
        let t := backgroundTick s
        (s.board.written < 13 →
          t = { s with dram := t.dram, board := { s.board with written := s.board.written + 1 } } ∧
          (∀ i < 2, t.dram.read (half + 2 + 2 * s.board.written + i) = f.outcomeBytes.getD (2 * s.board.written + i) 0) ∧
          ∀ a, a < half + 2 + 2 * s.board.written ∨ half + 4 + 2 * s.board.written ≤ a → t.dram.read a = s.dram.read a) ∧
        (13 ≤ s.board.written → f.lane.isSome = true → t = s) ∧
        (s.board.written = 13 → f.lane = none →
          t = { s with dram := t.dram, board := t.board } ∧
          t.board = { s.board with queue := .completion :: rest, written := 0, slots := t.board.slots } ∧
          ((s.slot f.slot).status = .finished → (s.slot f.slot).seen = f.seen →
            t.slot f.slot = { s.slot f.slot with intake := none }) ∧
          t.dram.read half = f.seen ∧ t.dram.read (half + 1) = 3 ∧
          ∀ a, a ≠ half → a ≠ half + 1 → t.dram.read a = s.dram.read a)) ∧
      (∀ rest, s.board.queue = .completion :: rest → s.board.written = 0 →
        let t := backgroundTick s
        t = { s with dram := t.dram, board := { s.board with written := 1 } } ∧
        (∀ i < 2, t.dram.read (s.cfg.boardBase + 32 + i) = (s.board.completion + 1).extractLsb' (8 * i) 8) ∧
        ∀ a, a < s.cfg.boardBase + 32 ∨ s.cfg.boardBase + 34 ≤ a → t.dram.read a = s.dram.read a))

/-! ## Admission -/

/-- Step 2 takes the state gates in 5.2's order and the first that holds decides: the three refusals with their details, the
three holds, the last two of them and the pass with the clamp flags of the temperature in use (3.5). Step 4 decides the
effective mode and the flags by the first matching line of its table; FORCED_CLEAN never comes with PROMOTED or GHOST_RISK. -/
def Obligations.GatesAndModeDecideByTheirTables : Prop :=
  (∀ (s : State) (r : Rect) (f : Flags),
     let bad := fun k : Fin 4 => k.val < s.cfg.segments ∧ r.x < (k.val + 1) * (s.cfg.width / s.cfg.segments) ∧
       k.val * (s.cfg.width / s.cfg.segments) < r.x + r.w ∧
       ((s.link k).state = .faulted ∨ (s.link k).state = .training)
     let t := s.monitor.inUse.getD 0
     let clamped := { f with coldClamp := decide (t < 4 * s.banks.bounds.getD 0 0),
                             hotClamp := decide (4 * s.banks.bounds.getD 12 0 ≤ t) }
     (s.rails.state = .fault → stateGates r f s = .refused (.railsDown s.rails.cause)) ∧
     (s.rails.state ≠ .fault → ∀ k, bad k → (∀ j, j < k → ¬ bad j) → stateGates r f s = .refused (.segmentFault k)) ∧
     (s.rails.state ≠ .fault → (∀ k, ¬ bad k) →
       (s.monitor.status = .invalid → stateGates r f s = .refused .noTemperature) ∧
       (s.monitor.status = .none → stateGates r f s = .held f) ∧
       (s.monitor.status ≠ .invalid → s.monitor.status ≠ .none →
         (s.banks.active = none ∨ s.rails.state = .falling → stateGates r f s = .held clamped) ∧
         (s.banks.active ≠ none → s.rails.state ≠ .falling → stateGates r f s = .passed clamped)))) ∧
  (∀ (requested : Mode) (report : Bool) (g : LedgerReading) (f : Flags),
     f.forcedClean = false → f.promoted = false → f.ghostRisk = false →
     let d := decideMode requested report g f
     (requested = .clean → d = (.clean, f)) ∧
     (requested ≠ .clean → g.anyUnknown = true → d = (.clean, { f with forcedClean := true })) ∧
     (requested = .gray ∨ requested = .quick → g.anyUnknown = false → g.anyGhost = true → report = false →
       d = (.clean, { f with promoted := true })) ∧
     (requested = .gray ∨ requested = .quick → g.anyUnknown = false → g.anyGhost = true → report = true →
       d = (requested, { f with ghostRisk := true })) ∧
     (requested = .ink → g.anyUnknown = false → g.anyGhost = true → d = (.ink, { f with ghostRisk := true })) ∧
     (requested ≠ .clean → g.anyUnknown = false → g.anyGhost = false → d = (requested, f)) ∧
     (d.2.forcedClean = true → d.2.promoted = false ∧ d.2.ghostRisk = false))

/-- Steps 5 to 7 and step 1 of an examination (5.2, 6.2, 6.3): an earlier pending request holds a later one exactly where
their clipped rectangles share a pixel; INK takes the lowest FREE lane of 28..31, else of 0..27, and every other requested mode
the lowest of 0..27; the probe reports a conflict exactly where a pixel of the rectangle is owned, else whether one is unknown;
and the clipped rectangle holds exactly the posted pixels inside the panel, keeps the posted corner, is empty exactly where the
corner lies outside, and CLIPPED tells that it is smaller than the posted one. -/
def Obligations.ClipOrderLaneAndProbeChecks : Prop :=
  ((∀ (s : State) (pre post : List Waiting) (e : Waiting) (r : Rect), s.admission.list = pre ++ e :: post →
     (∀ k ∈ pre, k.slot ≠ e.slot) → 1 ≤ r.w → 1 ≤ r.h →
     (∀ k ∈ pre, ∀ p, k.clip = some p → 1 ≤ p.w ∧ 1 ≤ p.h) →
     (heldByOrder e.slot r s = true ↔ ∃ k ∈ pre, ∃ p, k.clip = some p ∧
       ∃ x y, p.contains x y = true ∧ r.contains x y = true)) ∧
   (∀ (s : State) (m : Mode),
     (∀ n, chooseLane m s = some n → (s.lane n).state = .free ∧
       ((28 ≤ n.val ∧ m = .ink ∧ ∀ k : Fin 32, 28 ≤ k.val → k < n → (s.lane k).state ≠ .free) ∨
         (n.val < 28 ∧ (∀ k, k < n → (s.lane k).state ≠ .free) ∧
           (m = .ink → ∀ k : Fin 32, 28 ≤ k.val → (s.lane k).state ≠ .free)))) ∧
     (chooseLane m s = none ↔ ∀ k : Fin 32, k.val < 28 ∨ m = .ink → (s.lane k).state ≠ .free)) ∧
   ∀ (s : State) (r : Rect), s.dram.wf = true →
     let word := fun x y => s.dram.readWord (s.cfg.planeBase + 2 * (y * s.cfg.width + x))
     (probe r s = .conflict ↔ ∃ x y, r.contains x y = true ∧ (word x y).getLsbD 13 = true) ∧
     (probe r s = .clear true ↔ (∀ x y, r.contains x y = true → (word x y).getLsbD 13 = false) ∧
       ∃ x y, r.contains x y = true ∧ (word x y).getLsbD 14 = true)) ∧
  (∀ (c : Setup) (i : Intake), 1 ≤ i.w → 1 ≤ i.h →
     (clipRect c i = none ↔ c.width ≤ i.x ∨ c.height ≤ i.y) ∧
     ∀ r, clipRect c i = some r →
       r.x = i.x ∧ r.y = i.y ∧ 1 ≤ r.w ∧ 1 ≤ r.h ∧
       (∀ px py, r.contains px py = true ↔
         (i.x ≤ px ∧ px < i.x + i.w ∧ px < c.width) ∧ (i.y ≤ py ∧ py < i.y + i.h ∧ py < c.height)) ∧
       (isClipped c i = true ↔ r.w < i.w ∨ r.h < i.h))

/-- An examination goes step by step between two commands (5.1, 5.2), and however many of its steps have been made so,
ADMISSION_PASS comes to the same. A trigger in READY starts a pass at the front, which on an empty list ends at once; during a
pass it sets the further-pass flag. Once it has examined the last request of the list a pass ends, and the further pass that
the flag asks for starts at once. Step 1, of the first request the pass has not examined, clears its flags and mode and
records its clip, or finishes it NOTHING_TO_DO. Step 3 goes tile by tile: each tile is settled and written back whole, nothing
else of DRAM moves, what it shows is added to the reading, and the score seen rises to its score, so that an examination that
ends before its claim leaves the tiles it has settled, and its flags and score set so far. In HALTING an examination comes to
its end, with its claim and fetch, and no other begins. That steps 7 and 8 are one step, and the tile's rise of the score, are
the model's readings (notes/assumptions/34.md), and that the end of a pass is a step of its own is its choice
(notes/assumptions/2.md). -/
def Obligations.ExaminationsGoStepByStep : Prop :=
  (∀ s : State,
     let atEnd := s.port.partState = .ready ∧ s.admission.fetch = none ∧ s.admission.exam = none ∧
       s.admission.passActive = true ∧ ∀ e ∈ s.admission.list, e.examined = true
     (atEnd → passTick s = { s with admission := { s.admission with
         passDue := false, passActive := s.admission.passDue && decide (s.admission.list ≠ []),
         list := s.admission.list.map fun e => if s.admission.passDue then { e with examined := false } else e } } ∧
       exec .admissionPass s = .next (passTick s)) ∧
     (¬ atEnd → exec .admissionPass (passTick s) = exec .admissionPass s)) ∧
  (∀ s : State,
     (s.port.partState ≠ .ready → triggerPass s = s) ∧
     (s.port.partState = .ready → s.admission.passActive = true →
       triggerPass s = { s with admission := { s.admission with passDue := true } }) ∧
     (s.port.partState = .ready → s.admission.passActive = false →
       triggerPass s = { s with admission := { s.admission with
         passDue := false, passActive := decide (s.admission.list ≠ []),
         list := s.admission.list.map fun e => { e with examined := false } } })) ∧
  (∀ (s : State) (pre post : List Waiting) (e : Waiting), s.port.partState = .ready → s.admission.fetch = none →
    s.admission.exam = none → s.admission.passActive = true → s.admission.list = pre ++ e :: post →
    (∀ k ∈ pre, k.examined = true) → e.examined = false → (s.admission.list.map Waiting.slot).Nodup →
    let i := s.intake e.slot
    (clipRect s.cfg i = none → (passTick s).admission = { s.admission with list := pre ++ post } ∧
      (passTick s).slot e.slot = { s.slot e.slot with status := .finished } ∧
      .finish (Finish.refusal e.slot (s.slot e.slot).seen i.tag .nothingToDo Flags.none none e.score) ∈
        (passTick s).board.queue) ∧
    ∀ r, clipRect s.cfg i = some r → passTick s = { s with admission := { s.admission with
      list := pre ++ { e with examined := true, clip := some r, mode := none,
                              flags := { Flags.none with clipped := isClipped s.cfg i } } :: post,
      exam := some ⟨e.slot, r, .gates⟩ } }) ∧
  (∀ (s : State) (slot : Fin 64) (r : Rect) (absent : List Mode) (tx ty : Nat) (left : List (Nat × Nat))
    (reading : LedgerReading), s.dram.wf = true → s.admission.fetch = none →
    s.admission.exam = some ⟨slot, r, .ledger absent ((tx, ty) :: left) reading⟩ →
    let settled := (readEntry s.cfg tx ty s.dram).settle (s.monitor.ticks.toNat % 65536)
    let score := ghostScore s.cfg settled
    let seen : LedgerReading :=
      { anyUnknown := reading.anyUnknown || decide (0 < settled.unknown),
        anyGhost := reading.anyGhost || meetsGhost s.cfg score, highest := max reading.highest score }
    let at_ := s.cfg.ledgerBase + 8 * (ty * (s.cfg.width / 16) + tx)
    passTick s = { s with dram := (passTick s).dram, admission := { s.admission with
      list := s.admission.list.map fun e =>
        if e.slot = slot then { e with score := max e.score (min seen.highest 65535) } else e,
      exam := some ⟨slot, r, if left = [] then .mode absent seen else .ledger absent left seen⟩ } } ∧
    (settled.residue.natAbs ≤ 32767 → readEntry s.cfg tx ty (passTick s).dram = settled) ∧
    ∀ a, a < at_ ∨ at_ + 8 ≤ a → (passTick s).dram.read a = s.dram.read a) ∧
  ∀ (s t : State) (x : Exam), s.port.partState = .halting → s.admission.fetch = none → s.admission.exam = some x →
    exec .admissionPass s = .next t →
    t.admission.exam = none ∧ t.port = s.port ∧
      (t.admission.fetch = none → t.admission.passActive = false) ∧
      ∀ e ∈ s.admission.list, e.slot ≠ x.slot → e ∈ t.admission.list

/-- A triggered pass on a list whose every request meets the same end (5.1, 5.2): with the rails in FAULT each leaves the list,
finished RAILS_DOWN, or NOTHING_TO_DO where it lies outside the panel; with no temperature, the segments and rails whole and
every request inside the panel, each stays in its place; an empty list ends the pass at once. And every pass, whatever it
meets, keeps the list's order (6.1): a slot that left is FINISHED or RUNNING, one that stays keeps its record and its deadline,
and the score seen never falls. -/
def Obligations.PassesWalkTheListInOrder : Prop :=
  (∀ s : State, s.port.partState = .ready → s.admission.fetch = none → s.admission.exam = none →
     s.admission.passActive = true → s.admission.passDue = false → (∀ e ∈ s.admission.list, e.examined = false) →
     (s.admission.list.map Waiting.slot).Nodup →
     (s.admission.list = [] →
       exec .admissionPass s = .next { s with admission := { s.admission with passActive := false } }) ∧
     (s.rails.state = .fault →
       ∃ t, exec .admissionPass s = .next t ∧ t = { s with admission := t.admission, board := t.board } ∧
         t.admission = { s.admission with list := [], passActive := false } ∧
         (∀ e ∈ s.admission.list, t.slot e.slot = { s.slot e.slot with status := .finished } ∧
           ∃ f, .finish f ∈ t.board.queue ∧ f.slot = e.slot ∧ f.seen = (s.slot e.slot).seen ∧
             f.tag = (s.intake e.slot).tag ∧ f.score = e.score ∧ f.lane = none ∧ f.mode = none ∧
             f.outcome = if s.cfg.width ≤ (s.intake e.slot).x ∨ s.cfg.height ≤ (s.intake e.slot).y then .nothingToDo
               else .railsDown s.rails.cause) ∧
         ∀ i, (∀ e ∈ s.admission.list, e.slot ≠ i) → t.slot i = s.slot i) ∧
     (s.rails.state ≠ .fault → s.monitor.status = .none → (∀ k, (s.link k).state = .up ∨ (s.link k).state = .down) →
       (∀ e ∈ s.admission.list, (s.intake e.slot).x < s.cfg.width ∧ (s.intake e.slot).y < s.cfg.height) →
       ∃ t, exec .admissionPass s = .next t ∧ t = { s with admission := t.admission } ∧
         t.admission.list.map Waiting.slot = s.admission.list.map Waiting.slot ∧
         t.admission.list.map Waiting.deadline = s.admission.list.map Waiting.deadline ∧
         t.admission.list.map Waiting.score = s.admission.list.map Waiting.score ∧
         t.admission.passActive = false ∧ t.admission.passDue = false ∧ t.admission.fetch = none)) ∧
  (∀ (c : Instr) (s t : State), c = .admissionPass ∨ c = .fetchEnd → (s.admission.list.map Waiting.slot).Nodup →
     exec c s = .next t →
     (t.admission.list.map Waiting.slot).Sublist (s.admission.list.map Waiting.slot) ∧
     (∀ e ∈ s.admission.list, (∀ k ∈ t.admission.list, k.slot ≠ e.slot) →
       (t.slot e.slot).status = .finished ∨ (t.slot e.slot).status = .running) ∧
     ∀ e ∈ s.admission.list, ∀ k ∈ t.admission.list, k.slot = e.slot →
       t.slot e.slot = s.slot e.slot ∧ k.deadline = e.deadline ∧ e.score ≤ k.score)

/-- Where an examination ends before its claim, or at the claim's own reads (5.2, 5.3, 6.2, 6.3), each end with everything it
moves. First, of a lone request. A state gate refuses it, with the gate's outcome, or holds it; an effective mode absent from
the active bank refuses it MODE_ABSENT with that mode named; no lane free holds it; a conflict holds it under WAIT, handing one
CONFLICT_DEFERRALS event, and refuses it CONFLICT under REFUSE; an unknown pixel holds it unless its mode is CLEAN. A request
held keeps its place, with the flags, the mode and the score of this examination in its record; one refused leaves the list
with its slot FINISHED. And where a boundary's own pass comes before its completions, the probe finds the pixels still owned
(R103). Then, of any examination in progress whose probe allows the claim, whatever has changed since its step 2, in the
admission unit's own step, to which ADMISSION_PASS comes as the statement on its steps says: FAULT refuses it RAILS_DOWN and a
FAULTED or TRAINING segment SEGMENT_FAULT, each with the flags and the score of this examination; FALLING holds it, and so does
an active bank that lacks the mode or is gone, each with its record as it stands; and else, with no alert asserted, the lane
takes the mode, the flags and the score of this examination with the bank active then. The order of hand-offs is the model's
choice (notes/assumptions/6.md), and that no event falls between the probe and the claim's reads is too
(notes/assumptions/34.md). -/
def Obligations.ExaminationsEndAtTheStepThatDecides : Prop :=
  (∀ (s : State) (e : Waiting) (r : Rect),
    let i := s.intake e.slot
    let f₀ : Flags := { Flags.none with clipped := isClipped s.cfg i }
    let g := ledgerRead s.cfg s.tick r s.dram
    let score := max e.score (min g.2.highest 65535)
    let refused := fun (t : State) (outcome : SlotOutcome) (f : Flags) (mode : Option Mode) (score : Nat) (m : Memory) =>
      t = { s with dram := m, admission := { s.admission with list := [], passActive := false }, board := t.board } ∧
      t.board = { s.board with
        slots := t.board.slots,
        queue := s.board.queue ++ (if s.configured then [.header (.pendingCount 0)] else []) ++
          [.finish { slot := e.slot, seen := (s.slot e.slot).seen, outcome := outcome, flags := f, mode := mode,
                     lane := none, startFrame := 0, endFrame := 0, driven := 0, leftUnknown := 0, score := score,
                     tag := i.tag }] } ∧
      t.slot e.slot = { s.slot e.slot with status := .finished } ∧ ∀ k, k ≠ e.slot → t.slot k = s.slot k
    let held := fun (f : Flags) (mode : Option Mode) (score : Nat) (m : Memory) =>
      ({ s with dram := m, admission := { s.admission with
        list := [{ e with examined := true, clip := some r, flags := f, mode := mode, score := score }],
        passActive := false } } : State)
    s.port.partState = .ready → s.admission.fetch = none → s.admission.exam = none → s.admission.passActive = true →
    s.admission.passDue = false → s.admission.list = [e] → e.examined = false → clipRect s.cfg i = some r →
    (∀ outcome, stateGates r f₀ s = .refused outcome →
      ∃ t, exec .admissionPass s = .next t ∧ refused t outcome f₀ none e.score s.dram) ∧
    (∀ f, stateGates r f₀ s = .held f → exec .admissionPass s = .next (held f none e.score s.dram)) ∧
    (∀ f bank, stateGates r f₀ s = .passed f → s.banks.active = some bank →
      let d := decideMode (Mode.ofCode i.mode) (i.ghostPolicy == 1) g.2 f
      let deferred := { held d.2 (some d.1) score g.1 with tally := { s.tally with
        counters := s.tally.counters.map (TallyCounter.count (decide (s.rails.state = .fault)) .conflictDeferrals 1) } }
      ((s.banks.get bank).modeLength d.1 = 0 →
        ∃ t, exec .admissionPass s = .next t ∧ refused t .modeAbsent d.2 (some d.1) score g.1) ∧
      ((s.banks.get bank).modeLength d.1 ≠ 0 →
        (chooseLane (Mode.ofCode i.mode) s = none →
          exec .admissionPass s = .next (held d.2 (some d.1) score g.1)) ∧
        (∀ n, chooseLane (Mode.ofCode i.mode) s = some n →
          (probe r { s with dram := g.1 } = .conflict →
            (i.conflictPolicy = 0 → exec .admissionPass s = .next deferred) ∧
            (i.conflictPolicy ≠ 0 →
              ∃ t, exec .admissionPass s = .next t ∧ refused t .conflict d.2 none score g.1) ∧
            (i.conflictPolicy = 0 → s.frame.timer = true →
              (∀ k, (s.link k).frame = .none ∨ (s.link k).judged = true) →
              ∃ t, exec (.frameBoundary ⟨false, .first⟩)
                  { s with admission := { s.admission with passActive := false } } = .next t ∧
                t.admission = deferred.admission ∧ t.slot e.slot = s.slot e.slot)) ∧
          (probe r { s with dram := g.1 } = .clear true → d.1 ≠ .clean →
            exec .admissionPass s = .next (held d.2 (some d.1) score g.1)))))) ∧
  ∀ (s : State) (e : Waiting) (r : Rect) (mode : Mode) (n : Fin 32) (unknown : Bool), s.admission.fetch = none →
    s.admission.exam = some ⟨e.slot, r, .probe mode n⟩ → e ∈ s.admission.list → (s.admission.list.map Waiting.slot).Nodup →
    probe r s = .clear unknown → mode = .clean ∨ unknown = false →
    let bad := fun k : Fin 4 => k.val < s.cfg.segments ∧ r.x < (k.val + 1) * (s.cfg.width / s.cfg.segments) ∧
      k.val * (s.cfg.width / s.cfg.segments) < r.x + r.w ∧
      ((s.link k).state = .faulted ∨ (s.link k).state = .training)
    let t := passTick s
    let left := { s.admission with
      exam := none, passActive := s.admission.passActive && decide (s.port.partState = .ready) }
    let refused := fun (outcome : SlotOutcome) =>
      t = { s with admission := { left with list := s.admission.list.filter fun k => k.slot != e.slot }, board := t.board } ∧
      t.board = { s.board with
        slots := t.board.slots,
        queue := s.board.queue ++
          (if s.configured then [.header (.pendingCount (s.admission.list.length - 1))] else []) ++
          [.finish { slot := e.slot, seen := (s.slot e.slot).seen, outcome := outcome, flags := e.flags, mode := none,
                     lane := none, startFrame := 0, endFrame := 0, driven := 0, leftUnknown := 0, score := e.score,
                     tag := (s.intake e.slot).tag }] } ∧
      t.slot e.slot = { s.slot e.slot with status := .finished } ∧ ∀ k, k ≠ e.slot → t.slot k = s.slot k
    (s.rails.state = .fault → refused (.railsDown s.rails.cause)) ∧
    (s.rails.state ≠ .fault → ∀ k, bad k → (∀ j, j < k → ¬ bad j) → refused (.segmentFault k)) ∧
    (s.rails.state ≠ .fault → (∀ k, ¬ bad k) →
      (s.rails.state = .falling → t = { s with admission := left }) ∧
      (s.banks.active = none ∨ (∃ bank, s.banks.active = some bank ∧ (s.banks.get bank).modeLength mode = 0) →
        t = { s with admission := left }) ∧
      ∀ bank, s.rails.state ≠ .falling → s.pins.alert = false → s.banks.active = some bank →
        (s.banks.get bank).modeLength mode ≠ 0 →
        t.lane n = { state := .loading, slot := e.slot, seen := (s.slot e.slot).seen, mode := mode, bank := bank, rect := r,
                     index := 0, length := 0, startFrame := none, withdrawLate := false, flags := e.flags,
                     score := e.score, claimed := 0, completed := 0, ending := .none, toClose := [] } ∧
        (∀ k, k ≠ n → t.lane k = s.lane k) ∧ t.admission.fetch = some ⟨n, 0, none⟩ ∧
        (t.slot e.slot).status = .running ∧
        t.admission.list = s.admission.list.filter fun k => k.slot != e.slot)

/-- A pass that reaches a lone request whose gates, ledger, lane and probe allow it claims it (5.3): the lane goes from FREE to
LOADING with the request's record, its bank's count rises by 1, the request leaves the list and is RUNNING, the RUNNING write
is handed, a promoted one hands one PROMOTIONS event, and its fetch is under way. That the claim's own step already sets the
lane's scratch records for the rectangle's tiles to zeros, while no pixel has been taken and the fetch stands at its first, is
the model's reading (notes/assumptions/20.md); every other record, of this lane or another, stays. With the rails OFF the claim
raises them, with no demand held before; with the rails RISING, in a step whose delay is not 0 or waiting for power-good, or
ON, it does not. The order in which one step's hand-offs wait is the model's choice (notes/assumptions/6.md). The premises name
the decisions by the functions that the statements above specify. -/
def Obligations.AClaimFillsTheLaneRecord : Prop :=
  ∀ (s : State) (e : Waiting) (r : Rect) (f : Flags) (n : Fin 32) (bank : BankId) (unknown : Bool),
    let i := s.intake e.slot
    let g := ledgerRead s.cfg s.tick r s.dram
    let d := decideMode (Mode.ofCode i.mode) (i.ghostPolicy == 1) g.2 f
    s.port.partState = .ready → s.admission.fetch = none → s.admission.exam = none → s.admission.passActive = true →
    s.admission.passDue = false → s.admission.list = [e] → e.examined = false → s.pins.alert = false → s.dram.wf = true →
    16 ∣ s.cfg.width → 16 ∣ s.cfg.height →
    (s.rails.state = .on ∨
      s.rails.state = .rising ∧ (s.rails.stepTimer = true → s.cfg.stepDelays.getD s.rails.step 0 ≠ 0) ∧
        (s.rails.riseTimer = true → s.pins.powerGood = false) ∨
      s.rails.state = .off ∧ s.rails.demandHeld = false ∧ s.cfg.stepDelays.getD 0 0 ≠ 0) →
    clipRect s.cfg i = some r →
    stateGates r { Flags.none with clipped := isClipped s.cfg i } s = .passed f → s.banks.active = some bank →
    (s.banks.get bank).modeLength d.1 ≠ 0 → chooseLane (Mode.ofCode i.mode) s = some n →
    probe r { s with dram := g.1 } = .clear unknown → d.1 = .clean ∨ unknown = false → 1 ≤ i.w → 1 ≤ i.h →
    ∃ t, exec .admissionPass s = .next t ∧
      ((t.lane n).state = .loading ∧ (t.lane n).slot = e.slot ∧ (t.lane n).seen = (s.slot e.slot).seen ∧
        (t.lane n).mode = d.1 ∧ (t.lane n).bank = bank ∧ (t.lane n).rect = r ∧ (t.lane n).index = 0 ∧
        (t.lane n).length = 0 ∧ (t.lane n).claimed = 0 ∧ (t.lane n).startFrame = none ∧
        (t.lane n).withdrawLate = false ∧ (t.lane n).completed = 0 ∧
        (t.lane n).score = max e.score (min g.2.highest 65535) ∧ (t.lane n).flags = d.2 ∧
        (t.lane n).ending = .none ∧ (t.lane n).toClose = [] ∧ t.closing = s.closing) ∧
      (∀ k, k ≠ n → t.lane k = s.lane k) ∧
      (t.banks.get bank).refs = (s.banks.get bank).refs + 1 ∧ t.banks.get bank.other = s.banks.get bank.other ∧
      t.admission.list = [] ∧ t.admission.exam = none ∧ t.admission.passActive = true ∧ t.admission.fetch = some ⟨n, 0, none⟩ ∧
      (∀ tx ty, (tileRect tx ty).overlaps r = true → readScratch s.cfg n tx ty t.dram = ⟨0, 0, false⟩) ∧
      (∀ (k : Fin 32) (tx ty : Nat), tx < s.cfg.width / 16 → ty < s.cfg.height / 16 →
        k ≠ n ∨ (tileRect tx ty).overlaps r = false → ∀ i < 4,
        let at_ := s.cfg.scratchBase +
          4 * (k.val * ((s.cfg.width / 16) * (s.cfg.height / 16)) + (ty * (s.cfg.width / 16) + tx)) + i
        t.dram.read at_ = g.1.read at_) ∧
      (∀ a, a < s.cfg.scratchBase ∨ s.cfg.scratchBase + 128 * ((s.cfg.width / 16) * (s.cfg.height / 16)) ≤ a →
        t.dram.read a = g.1.read a) ∧
      t.slot e.slot = { s.slot e.slot with status := .running } ∧ (∀ k, k ≠ e.slot → t.slot k = s.slot k) ∧
      t.tally = (if d.2.promoted then
        { s.tally with counters := s.tally.counters.map (TallyCounter.count false .promotions 1) } else s.tally) ∧
      t.board.queue = s.board.queue ++
        [.header (.pendingCount 0), .running e.slot (s.slot e.slot).seen d.1 n, .header (.lanesInUse t.lanesOut)] ++
        (if s.rails.state = .off then [.header (.railState .rising)] else []) ∧
      t.frame = (if s.rails.state = .off then { s.frame with timer := true } else s.frame) ∧
      let busy := { s.rails with
        lanesBusy := true, idleTimer := if s.rails.idleTimer = .running then .stopped else s.rails.idleTimer }
      t.rails = if s.rails.state = .off then
          { busy with state := .rising, step := 0, stepTimer := true, riseTimer := false, demandHeld := false }
        else busy

/-- The fetch claims exactly the pixels of the clipped rectangle that have a waveform to run (5.4): each pixel's image level
is rounded to the nearest level of its mode's set and looked up in the lane's bank from the pixel's from-level; where ℓ > 0
the word takes target, lane and owned and keeps current and unknown, else it stays. The lane's L is the largest ℓ claimed, its
count the pixels claimed, and ROUNDED tells that a level was changed. Each tile's scratch record holds the sums of its claimed
pixels. The premises are what the setup checks and the clip ensure, the image's bytes among them. This is the fetch of an
image that stands still, from its first pixel to its last; each pixel of it is one step of the part's own
(notes/assumptions/20.md). -/
def Obligations.TheFetchClaimsThePixelsWithAWaveform : Prop :=
  ∀ (s : State) (n : Fin 32), s.dram.wf = true →
    let l := s.lane n
    let i := s.intake l.slot
    let word := fun (m : Memory) x y => m.readWord (s.cfg.planeBase + 2 * (y * s.cfg.width + x))
    let byte := fun x y => (s.dram.read (i.image + (y - l.rect.y) * i.pitch + (x - l.rect.x) / 2)).toNat
    let level := fun x y => if (x - l.rect.x) % 2 = 0 then byte x y / 16 else byte x y % 16
    let target := fun x y => roundLevel l.mode (level x y)
    let entry := fun x y => (s.banks.get l.bank).entry l.mode
      (if (word s.dram x y).getLsbD 14 then 0 else (word s.dram x y).toNat % 16) (target x y)
    let inside := fun x y => l.rect.contains x y = true
    i.y = l.rect.y → l.rect.x + l.rect.w ≤ s.cfg.width → l.rect.y + l.rect.h ≤ s.cfg.height →
    (s.cfg.planeBase + s.cfg.width * s.cfg.height * 2 ≤ s.cfg.scratchBase ∨
      s.cfg.scratchBase + 128 * ((s.cfg.width / 16) * (s.cfg.height / 16)) ≤ s.cfg.planeBase) →
    16 ∣ s.cfg.width → 16 ∣ s.cfg.height →
    (∀ x y, inside x y → let a := i.image + (y - l.rect.y) * i.pitch + (x - l.rect.x) / 2
      (a < s.cfg.planeBase ∨ s.cfg.planeBase + s.cfg.width * s.cfg.height * 2 ≤ a) ∧
      (a < s.cfg.scratchBase ∨ s.cfg.scratchBase + 128 * ((s.cfg.width / 16) * (s.cfg.height / 16)) ≤ a)) →
    l.length = 0 → l.claimed = 0 → s.admission.fetch = some ⟨n, 0, none⟩ →
    let t := fetchRest (startFetch n s)
    (∀ v < 16, roundLevel .clean v = v ∧ roundLevel .gray v = v ∧
      (∀ q ∈ [0, 5, 10, 15], q ≠ roundLevel .quick v →
        ((roundLevel .quick v : Int) - v).natAbs < ((q : Int) - v).natAbs) ∧ roundLevel .quick v ∈ [0, 5, 10, 15] ∧
      (∀ q ∈ [0, 15], q ≠ roundLevel .ink v →
        ((roundLevel .ink v : Int) - v).natAbs < ((q : Int) - v).natAbs) ∧ roundLevel .ink v ∈ [0, 15]) ∧
    (∀ x y, x < s.cfg.width → y < s.cfg.height →
      (inside x y → entry x y ≠ [] →
        word t.dram x y = (word s.dram x y &&& 0x400F#16) |||
          (BitVec.ofNat 16 (0x2000 + 256 * n.val + 16 * target x y))) ∧
      (¬ inside x y ∨ entry x y = [] → word t.dram x y = word s.dram x y)) ∧
    (∀ x y, inside x y → (entry x y).length ≤ (t.lane n).length) ∧
    ((t.lane n).length = 0 ∨ ∃ x y, inside x y ∧ (entry x y).length = (t.lane n).length) ∧
    (t.lane n).claimed = ((List.range l.rect.h).map fun j => (List.range l.rect.w).countP fun k =>
      !(entry (l.rect.x + k) (l.rect.y + j)).isEmpty).sum ∧
    ((t.lane n).flags.rounded = true ↔ l.flags.rounded = true ∨ ∃ x y, inside x y ∧ target x y ≠ level x y) ∧
    (∀ tx ty, tx < s.cfg.width / 16 → ty < s.cfg.height / 16 →
      (∃ x y, inside x y ∧ x / 16 = tx ∧ y / 16 = ty) →
      let mine := (List.range 256).filter fun k =>
        l.rect.contains (16 * tx + k % 16) (16 * ty + k / 16) &&
          !(entry (16 * tx + k % 16) (16 * ty + k / 16)).isEmpty
      (∀ id, ∀ v ∈ (s.banks.get id).entries, v.length ≤ 64) →
      let record := readScratch s.cfg n tx ty t.dram
      record.net = (mine.map fun k =>
        let v := entry (16 * tx + k % 16) (16 * ty + k / 16)
        (v.count .raise : Int) - v.count .lower).sum ∧
      record.cleared = (mine.countP fun k => (word s.dram (16 * tx + k % 16) (16 * ty + k / 16)).getLsbD 14) ∧
      record.driven = !mine.isEmpty) ∧
    t = { s with dram := t.dram, lanes := t.lanes, admission := t.admission } ∧
    (∀ k, k ≠ n → t.lane k = s.lane k) ∧
    ∃ held, t.admission = { s.admission with fetch := some ⟨n, l.rect.w * l.rect.h, held⟩ }

/-- FETCH_END takes the pixels that are left (5.4); the fetch's end then hands the lane over by its L: ARMED where L > 0; with
L = 0, and so no driven tile, CLOSING with the ending DONE, whose close has no tile to carry into the ledger and hands its
outcome next. The pass goes on in READY, with the admission unit's next step by the model's choice (notes/assumptions/2.md),
and ends in HALTING. -/
def Obligations.FetchEndArmsOrClosesTheLane : Prop :=
  (∀ s : State, exec .fetchEnd s = exec .fetchEnd (fetchRest s)) ∧
  (∀ (s : State) (f : Fetch), s.admission.fetch = some f → (s.lane f.lane).rect.w * (s.lane f.lane).rect.h ≤ f.position →
    let l := s.lane f.lane
    let left := { s.admission with fetch := none, passActive := decide (s.port.partState = .ready) }
    (l.length ≠ 0 → exec .fetchEnd s = .next { s with
      lanes := s.lanes.set f.lane.val { l with state := .armed }, admission := left }) ∧
    (l.length = 0 → exec .fetchEnd s = .next { s with
      lanes := s.lanes.set f.lane.val { l with state := .closing, ending := .done, toClose := [] },
      closing := s.closing ++ [f.lane], admission := left })) ∧
  (∀ s : State, s.admission.fetch = none → exec .fetchEnd s = .next s) ∧
  ∀ (s : State) (n : Fin 32) (rest : List (Fin 32)), s.closing = n :: rest → n ∉ rest →
    (s.lane n).length = 0 → (s.lane n).ending = .done → (s.lane n).toClose = [] →
    closeTick s = { s with
      closing := rest,
      board := { s.board with queue := s.board.queue ++
        [.finish { slot := (s.lane n).slot, seen := (s.lane n).seen, outcome := .done,
                   flags := { (s.lane n).flags with withdrawLate := (s.lane n).withdrawLate }, mode := some (s.lane n).mode,
                   lane := some n, startFrame := 0, endFrame := 0, driven := 0, leftUnknown := 0, score := (s.lane n).score,
                   tag := (s.intake (s.lane n).slot).tag }] } }

/-! ## Lanes and frames -/

/-- A frame boundary (7.2, 7.3), where every link has judged its frame, so that no segment fault comes with it, in either order
of links and lanes, its pass being left to ADMISSION_PASS: the frame number rises by 1, wrapping; each DRIVING lane completes
exactly its pixels whose last frame ended, its f rises, and at f = L it is CLOSING with DONE, its driven tiles due for its
close; with the rails ON each ARMED lane starts with f = 0 and the new number; no other lane and no other pixel moves; each
link takes up its frame, of which the stream stands at the first row, a training frame being whole with the pattern and its
check value as the expected echo; the tally's stamp is the new number; and in READY a scan and a pass are triggered. That the
lanes come to the closes in lane order is the model's choice (notes/assumptions/28.md). -/
def Obligations.FrameBoundaryDrivesEveryLane : Prop :=
  ∀ (s : State) (linksFirst : Bool), s.dram.wf = true → s.frame.timer = true → s.PlaceLaw →
    (∃ bounds, validateSetup s.cfg bounds = .none) →
    (∀ k, (s.link k).frame = .none ∨ (s.link k).judged = true) →
    let word := fun (m : Memory) x y => m.readWord (s.cfg.planeBase + 2 * (y * s.cfg.width + x))
    let ends := fun (n : Fin 32) x y =>
      (s.lane n).rect.contains x y && (word s.dram x y).getLsbD 13 &&
        ((word s.dram x y).toNat / 256 % 32 == n.val) &&
        (((s.banks.get (s.lane n).bank).entry (s.lane n).mode
          (if (word s.dram x y).getLsbD 14 then 0 else (word s.dram x y).toNat % 16)
          ((word s.dram x y).toNat / 16 % 16)).length == (s.lane n).index + 1)
    ∃ t, exec (.frameBoundary ⟨linksFirst, .later⟩) s = .next t ∧
      t.frame = { timer := true, number := s.frame.number + 1, row := 0, codes := [] } ∧
      t.frame.number.toNat = (s.frame.number.toNat + 1) % 4294967296 ∧
      t.closing = s.closing ++ (List.finRange 32).filter (fun n =>
        (s.lane n).state == .driving && (s.lane n).index + 1 == (s.lane n).length) ∧
      (∀ x y, x < s.cfg.width → y < s.cfg.height →
        word t.dram x y =
          if ∃ n, (s.lane n).state = .driving ∧ ends n x y = true then
            BitVec.ofNat 16 (17 * ((word s.dram x y).toNat / 16 % 16))
          else word s.dram x y) ∧
      (∀ n,
        ((s.lane n).state = .free ∨ (s.lane n).state = .loading ∨ (s.lane n).state = .closing → t.lane n = s.lane n) ∧
        ((s.lane n).state = .armed → t.lane n =
          if s.rails.state = .on then
            { s.lane n with state := .driving, index := 0, startFrame := some (s.frame.number + 1) }
          else s.lane n) ∧
        ((s.lane n).state = .driving → ∃ done,
          done = ((List.range (s.lane n).rect.h).map fun j => (List.range (s.lane n).rect.w).countP fun i =>
            ends n ((s.lane n).rect.x + i) ((s.lane n).rect.y + j)).sum ∧
          t.lane n =
            if (s.lane n).index + 1 = (s.lane n).length then
              { s.lane n with state := .closing, ending := .done, index := (s.lane n).index + 1,
                              completed := (s.lane n).completed + done,
                              toClose := (drivenTiles s.cfg n (s.lane n).rect s.dram).map fun p => (p.1, p.2, 0) }
            else { s.lane n with index := (s.lane n).index + 1, completed := (s.lane n).completed + done })) ∧
      (∀ k, (t.link k).judged = false ∧ (t.link k).state = (s.link k).state ∧
        (t.link k).frame =
          if s.rails.state = .on ∧ (s.link k).state = .up then .checked
          else if s.rails.state = .on ∧ (s.link k).state = .training then .training else .none) ∧
      (∀ k, (t.link k).frame = .checked → (t.link k).sent = [] ∧ (t.link k).expected = 0xFFFF#16) ∧
      (∀ k, (t.link k).frame = .training →
        (t.link k).sent = s.cfg.pattern ∧ (t.link k).expected = checkValue s.cfg.pattern) ∧
      t.tally.stamp = s.frame.number + 1 ∧ t.rails = s.rails ∧ t.banks = s.banks ∧ t.monitor = s.monitor ∧
      t.notice = s.notice ∧ t.port = s.port ∧ t.board.slots = s.board.slots ∧
      t.admission = (if s.port.partState = .ready then s.admission.trigger else s.admission) ∧
      t.board = { (if s.port.partState = .ready then s.board.trigger else s.board) with queue := t.board.queue }

/-- The tally's work at a frame boundary (11.1). The four configuration words of the board header are read into the copies;
then FRAMES is counted; then, as the work of the boundary comes to them, PIXELS_COMPLETED for every pixel that completes and
LANES_STARTED for every lane that starts; then, once the new frame has begun, ACTIVE_LANES and PENDING_DEPTH are sampled as
the numbers of DRIVING lanes and of pending requests; and the counters and the stamp, the new frame number, are handed. The
first clause holds of every boundary, for what no other work of it can touch: the frame number is handed first and the
publication last. The second says every counter whole, where every link has judged its frame and the pass is left to
ADMISSION_PASS. That the words are read before every other occurrence of the boundary, that PENDING_DEPTH is sampled together
with ACTIVE_LANES, and that the publication comes after the lanes' and the links' work, so that it always shows their
occurrences, are the model's choices (notes/assumptions/10.md), and that it is one request its reading
(notes/assumptions/30.md). -/
def Obligations.BoundariesDoTheTallysWork : Prop :=
  let word := fun (s : State) (i : Fin 4) => s.dram.readWord (s.cfg.boardBase + 4 + 2 * i.val)
  (∀ (s : State) (order : BoundaryOrder), s.frame.timer = true →
    ∃ t, exec (.frameBoundary order) s = .next t ∧ t.tally.stamp = s.frame.number + 1 ∧
      (s.configured = true → ∃ more, t.board.queue =
        s.board.queue ++ .header (.frameNumber (s.frame.number + 1)) ::
          (more ++ [.header (.tally (t.tally.counters.map TallyCounter.value) (s.frame.number + 1))])) ∧
      ∀ i : Fin 4,
        let w := word s i
        let kept := if w.toNat / 16 % 16 = s.tally.counters[i].config.select then s.tally.counters[i].value else 0
        t.tally.counters[i].config = TallyConfig.decode w ∧
        (w.toNat / 16 % 16 = 0 → t.tally.counters[i].value =
          if w.getLsbD 0 = true ∧ (w.getLsbD 3 = true → s.rails.state ≠ .fault) then kept + 1 else kept) ∧
        (9 < w.toNat / 16 % 16 ∨ w.getLsbD 0 = false → t.tally.counters[i].value = kept)) ∧
  ∀ (s : State) (linksFirst : Bool), s.dram.wf = true → s.frame.timer = true → s.PlaceLaw →
    (∃ bounds, validateSetup s.cfg bounds = .none) →
    (∀ k, (s.link k).frame = .none ∨ (s.link k).judged = true) →
    let ends := fun (n : Fin 32) x y =>
      let w := s.dram.readWord (s.cfg.planeBase + 2 * (y * s.cfg.width + x))
      w.getLsbD 13 && (w.toNat / 256 % 32 == n.val) &&
        (((s.banks.get (s.lane n).bank).entry (s.lane n).mode (if w.getLsbD 14 then 0 else w.toNat % 16)
          (w.toNat / 16 % 16)).length == (s.lane n).index + 1)
    let completing := ((List.finRange 32).map fun n => if (s.lane n).state = .driving then
      ((List.range (s.lane n).rect.h).map fun j => (List.range (s.lane n).rect.w).countP fun i =>
        ends n ((s.lane n).rect.x + i) ((s.lane n).rect.y + j)).sum else 0).sum
    let starting := if s.rails.state = .on then (List.finRange 32).countP fun n => (s.lane n).state == .armed else 0
    ∃ t, exec (.frameBoundary ⟨linksFirst, .later⟩) s = .next t ∧
      ∀ i : Fin 4,
        let frozen := decide (s.rails.state = .fault)
        t.tally.counters[i] =
          ((((s.tally.counters[i].configure (word s i)).count frozen .frames 1).count frozen .pixelsCompleted
            completing).count frozen .lanesStarted starting).sample
              ((List.finRange 32).countP fun n => (t.lane n).state == .driving) s.admission.list.length

/-- A frame boundary at which a link's checked frame has had no echo (8.4, R126), the pass left to ADMISSION_PASS. Within its
limit each such frame counts one mismatch, and each checked frame advances its window. Over the limit the one link faults at
the boundary, in either order with the lanes: links first, a DRIVING lane over it is BROKEN as it stood and an ARMED one
released; lanes first, the lane has completed, advanced, closed or started before, and the fault breaks it unless it is
CLOSING. A LOADING lane is released either way; a lane not over the segment does its boundary work alone. Each lane that comes
to CLOSING has its close in progress. The pixel words follow the order. That the links come before or after the lanes of the
whole boundary is the model's choice (notes/assumptions/10.md). That a FAULTED link's window position and count stand at 0 is
the model's reading (notes/assumptions/25.md). -/
def Obligations.BoundariesTakeMissingEchoesInEitherOrder : Prop :=
  (∀ (s : State) (linksFirst : Bool), s.frame.timer = true →
     let limit := s.cfg.errorLimit.toNat / 16 * 16 ^ (s.cfg.errorLimit.toNat % 16)
     let missing := fun k => decide ((s.link k).frame = .checked ∧ (s.link k).judged = false)
     (∀ k, (s.link k).frame = .training → (s.link k).judged = true) →
     (∀ k, missing k = true → 16 * ((s.link k).windowCount + 1) ≤ limit) →
     ∃ t, exec (.frameBoundary ⟨linksFirst, .later⟩) s = .next t ∧ t.rails = s.rails ∧ t.notice = s.notice ∧
       ∀ k,
         let l := s.link k
         let count := l.windowCount + if missing k then 1 else 0
         (t.link k).state = l.state ∧ (t.link k).total = (if missing k then l.total + 1 else l.total) ∧
         (l.frame ≠ .checked → (t.link k).windowPosition = l.windowPosition ∧ (t.link k).windowCount = l.windowCount ∧
           (t.link k).lastWindow = l.lastWindow) ∧
         (l.frame = .checked → l.windowPosition + 1 < s.cfg.window →
           (t.link k).windowPosition = l.windowPosition + 1 ∧ (t.link k).windowCount = count ∧
             (t.link k).lastWindow = l.lastWindow) ∧
         (l.frame = .checked → s.cfg.window ≤ l.windowPosition + 1 →
           (t.link k).windowPosition = 0 ∧ (t.link k).windowCount = 0 ∧ (t.link k).lastWindow = count)) ∧
  ∀ (s : State) (k : Fin 4) (linksFirst : Bool), s.dram.wf = true → s.frame.timer = true → s.PlaceLaw →
    (∃ bounds, validateSetup s.cfg bounds = .none) → s.rails.state = .on →
    (s.link k).state = .up → (s.link k).frame = .checked → (s.link k).judged = false →
    s.cfg.errorLimit.toNat / 16 * 16 ^ (s.cfg.errorLimit.toNat % 16) < 16 * ((s.link k).windowCount + 1) →
    (∀ j, j ≠ k → ((s.link j).frame = .none ∨ (s.link j).judged = true) ∧
      ((s.link j).state = .up ∨ (s.link j).state = .down)) →
    let word := fun (m : Memory) x y => m.readWord (s.cfg.planeBase + 2 * (y * s.cfg.width + x))
    let crosses := fun n : Fin 32 => k.val < s.cfg.segments ∧ (s.lane n).rect.x < (k.val + 1) * (s.cfg.width / s.cfg.segments) ∧
      k.val * (s.cfg.width / s.cfg.segments) < (s.lane n).rect.x + (s.lane n).rect.w
    let owns := fun (n : Fin 32) x y => (s.lane n).rect.contains x y && (word s.dram x y).getLsbD 13 &&
      ((word s.dram x y).toNat / 256 % 32 == n.val)
    let ends := fun (n : Fin 32) x y => owns n x y &&
      (((s.banks.get (s.lane n).bank).entry (s.lane n).mode
        (if (word s.dram x y).getLsbD 14 then 0 else (word s.dram x y).toNat % 16)
        ((word s.dram x y).toNat / 16 % 16)).length == (s.lane n).index + 1)
    let closes := fun n : Fin 32 => (s.lane n).index + 1 = (s.lane n).length
    ∃ t, exec (.frameBoundary ⟨linksFirst, .later⟩) s = .next t ∧
      t.link k = { s.link k with
        state := .faulted, windowPosition := 0, windowCount := 0, total := (s.link k).total + 1, frame := .none,
        judged := false, sent := [],
        expected := (t.link k).expected } ∧
      t.notice = { s.notice with segmentFault := true } ∧ t.rails = s.rails ∧
      (∀ n,
        let l := s.lane n
        (l.state = .free ∨ l.state = .closing → t.lane n = l) ∧
        (l.state = .loading → t.lane n =
          if crosses n then { l with state := .closing, ending := .segmentFault k, toClose := [] } else l) ∧
        (l.state = .armed → t.lane n =
          if crosses n then
            if linksFirst then { l with state := .closing, ending := .segmentFault k, toClose := [] }
            else { l with state := .closing, ending := .brokenBySegment k, index := 0, toClose := (t.lane n).toClose,
                          startFrame := some (s.frame.number + 1) }
          else { l with state := .driving, index := 0, startFrame := some (s.frame.number + 1) }) ∧
        (l.state = .driving →
          (crosses n → linksFirst = true →
            t.lane n = { l with state := .closing, ending := .brokenBySegment k, toClose := (t.lane n).toClose }) ∧
          (¬ (crosses n ∧ linksFirst = true) → ∃ done,
            done = ((List.range l.rect.h).map fun j => (List.range l.rect.w).countP fun i =>
              ends n (l.rect.x + i) (l.rect.y + j)).sum ∧
            t.lane n =
              if closes n then { l with state := .closing, ending := .done, index := l.index + 1,
                                        completed := l.completed + done, toClose := (t.lane n).toClose }
              else if crosses n then { l with state := .closing, ending := .brokenBySegment k, toClose := (t.lane n).toClose,
                                              index := l.index + 1, completed := l.completed + done }
              else { l with index := l.index + 1, completed := l.completed + done })) ∧
        (n ∈ t.closing ↔ n ∈ s.closing ∨ (t.lane n).state = .closing ∧ l.state ≠ .closing)) ∧
      ∀ x y, x < s.cfg.width → y < s.cfg.height →
        let broken := (word s.dram x y &&& 0x00FF#16) ||| 0x4000#16
        let released := word s.dram x y &&& 0x40FF#16
        let complete := BitVec.ofNat 16 (17 * ((word s.dram x y).toNat / 16 % 16))
        (linksFirst = true → word t.dram x y =
          if ∃ n, crosses n ∧ (s.lane n).state = .driving ∧ owns n x y = true then broken
          else if ∃ n, crosses n ∧ ((s.lane n).state = .loading ∨ (s.lane n).state = .armed) ∧ owns n x y = true then released
          else if ∃ n, ¬ crosses n ∧ (s.lane n).state = .driving ∧ ends n x y = true then complete
          else word s.dram x y) ∧
        (linksFirst = false → word t.dram x y =
          if ∃ n, (s.lane n).state = .driving ∧ ends n x y = true then complete
          else if ∃ n, crosses n ∧ ((s.lane n).state = .driving ∧ ¬ closes n ∨ (s.lane n).state = .armed) ∧
            owns n x y = true then broken
          else if ∃ n, crosses n ∧ (s.lane n).state = .loading ∧ owns n x y = true then released
          else word s.dram x y)

/-- A lane's close (7.4, 1.2). What it hands the board writer is R121's table. Whatever command takes a lane to CLOSING, a
boundary, a rail fault, or a segment fault at an echo or at a boundary, the close has to carry the tiles of its rectangle that
it has driven and no other: for DONE with nothing kept, for a break with q, the number of the tile's pixels that it owned and
that the break leaves unknown; none where it was released or has L = 0. The closes in progress then go on tile by tile between
commands: the first lane's next tile is settled with its scratch, applied for DONE (covered whole where a CLEAN lane's
rectangle contains it all) and break-marked with its q for a break, every other byte staying; after its last tile it hands its
outcome, and the next lane's close follows. So after as many steps as it has tiles, and one, each of its tiles has been
carried once and no other entry has moved. WITHDRAW_LATE reaches it until its outcome is handed, as the statement on scans
says. That the closes go one after another, in the order of entering CLOSING, is the model's choice (notes/assumptions/28.md).
The premises on an entry are R21's ranges. -/
def Obligations.ClosesReachTheLedgerAndHandTheirOutcome : Prop :=
  (∀ (n : Fin 32) (l : Lane) (tag : Word),
     let f := laneFinish n l tag
     (∀ first, l.startFrame = some first → l.ending = .done → 1 ≤ l.length →
       (f.outcome, f.startFrame, f.endFrame, f.driven, f.leftUnknown) =
       (.done, first, first + BitVec.ofNat 32 l.length - 1, l.completed, 0)) ∧
     (l.ending = .done → l.length = 0 →
       (f.outcome, f.startFrame, f.endFrame, f.driven, f.leftUnknown) =
       (.done, 0, 0, 0, 0)) ∧
     (∀ first, l.startFrame = some first → l.ending = .brokenByRails →
       (f.outcome, f.startFrame, f.endFrame, f.driven, f.leftUnknown) =
       (.brokenByRails, first, first + BitVec.ofNat 32 l.index, l.completed, l.claimed - l.completed)) ∧
     (∀ first k, l.startFrame = some first → l.ending = .brokenBySegment k →
       (f.outcome, f.startFrame, f.endFrame, f.driven, f.leftUnknown) =
       (.brokenBySegment k, first, first + BitVec.ofNat 32 l.index, l.completed, l.claimed - l.completed)) ∧
     (∀ cause, l.ending = .railsDown cause →
       (f.outcome, f.startFrame, f.endFrame, f.driven, f.leftUnknown) =
       (.railsDown cause, 0, 0, 0, 0)) ∧
     (∀ k, l.ending = .segmentFault k →
       (f.outcome, f.startFrame, f.endFrame, f.driven, f.leftUnknown) =
       (.segmentFault k, 0, 0, 0, 0)) ∧
     f.slot = l.slot ∧ f.seen = l.seen ∧ f.mode = some l.mode ∧ f.lane = some n ∧ f.score = l.score ∧ f.tag = tag ∧
     f.flags = { l.flags with withdrawLate := l.withdrawLate }) ∧
  (∀ (c : Instr) (s t : State) (n : Fin 32), s.dram.wf = true → s.PlaceLaw → (∃ bounds, validateSetup s.cfg bounds = .none) →
     c.resets = false → exec c s = .next t → (s.lane n).state ≠ .closing → (t.lane n).state = .closing →
     let l := t.lane n
     let word := fun (m : Memory) x y => m.readWord (s.cfg.planeBase + 2 * (y * s.cfg.width + x))
     let left := fun tx ty => (List.range 256).countP fun i =>
       let x := 16 * tx + i % 16
       let y := 16 * ty + i / 16
       l.rect.contains x y && (word s.dram x y).getLsbD 13 && ((word s.dram x y).toNat / 256 % 32 == n.val) &&
         (word t.dram x y).getLsbD 14
     let driven := fun tx ty => 0 < l.rect.w ∧ 0 < l.rect.h ∧ (tileRect tx ty).overlaps l.rect = true ∧
       (readScratch s.cfg n tx ty t.dram).driven = true
     n ∈ t.closing ∧ (l.toClose.map fun p => (p.1, p.2.1)).Nodup ∧
     (l.ending = .done → 1 ≤ l.length → ∀ tx ty q, (tx, ty, q) ∈ l.toClose ↔ driven tx ty ∧ q = 0) ∧
     (l.ending = .brokenByRails ∨ (∃ k, l.ending = .brokenBySegment k) →
       ∀ tx ty q, (tx, ty, q) ∈ l.toClose ↔ driven tx ty ∧ q = left tx ty) ∧
     (l.ending ≠ .none) ∧
     ((∃ cause, l.ending = .railsDown cause) ∨ (∃ k, l.ending = .segmentFault k) ∨ l.ending = .done ∧ l.length = 0 →
       l.toClose = [])) ∧
  (∀ (s : State) (n : Fin 32) (rest : List (Fin 32)), s.closing = n :: rest →
     let l := s.lane n
     (∀ tx ty q more, l.toClose = (tx, ty, q) :: more → s.dram.wf = true →
       let t := closeTick s
       let at_ := s.cfg.ledgerBase + 8 * (ty * (s.cfg.width / 16) + tx)
       t = { s with dram := t.dram, lanes := s.lanes.set n.val { l with toClose := more } } ∧
       (∀ a, a < at_ ∨ at_ + 8 ≤ a → t.dram.read a = s.dram.read a) ∧
       let entry := readEntry s.cfg tx ty s.dram
       let record := readScratch s.cfg n tx ty s.dram
       let now := s.monitor.ticks.toNat % 65536
       let whole := l.mode == .clean &&
         (List.range 256).all fun i => l.rect.contains (16 * tx + i % 16) (16 * ty + i / 16)
       entry.residue.natAbs ≤ 32767 → record.cleared ≤ entry.unknown →
       (l.ending = .done → readEntry s.cfg tx ty t.dram = entry.apply now whole record) ∧
       (l.ending = .brokenByRails ∨ (∃ k, l.ending = .brokenBySegment k) → entry.unknown + q < 65536 →
         readEntry s.cfg tx ty t.dram = entry.breakMark now q record)) ∧
     (l.toClose = [] → n ∉ rest → closeTick s = { s with
       closing := rest,
       board := { s.board with
         queue := s.board.queue ++ [.finish (laneFinish n l (s.intake l.slot).tag)] } })) ∧
  ∀ (s : State) (n : Fin 32) (rest : List (Fin 32)), s.closing = n :: rest → n ∉ rest → s.dram.wf = true → s.PlaceLaw →
    (∃ bounds, validateSetup s.cfg bounds = .none) → ((s.lane n).toClose.map fun p => (p.1, p.2.1)).Nodup →
    let l := s.lane n
    let t := closeTick^[l.toClose.length + 1] s
    t.closing = rest ∧ t.lane n = { l with toClose := [] } ∧ (∀ k, k ≠ n → t.lane k = s.lane k) ∧
    t.board = { s.board with queue := s.board.queue ++ [.finish (laneFinish n l (s.intake l.slot).tag)] } ∧
    ∀ tx ty, tx < s.cfg.width / 16 → ty < s.cfg.height / 16 →
      let entry := readEntry s.cfg tx ty s.dram
      let record := readScratch s.cfg n tx ty s.dram
      let now := s.monitor.ticks.toNat % 65536
      ((∀ q, (tx, ty, q) ∉ l.toClose) → readEntry s.cfg tx ty t.dram = entry) ∧
      ∀ q, (tx, ty, q) ∈ l.toClose → entry.residue.natAbs ≤ 32767 → record.cleared ≤ entry.unknown →
        (l.ending = .done → readEntry s.cfg tx ty t.dram =
          entry.apply now (l.mode == .clean && tileInside l.rect tx ty) record) ∧
        (l.ending = .brokenByRails ∨ (∃ k, l.ending = .brokenBySegment k) → entry.unknown + q < 65536 →
          readEntry s.cfg tx ty t.dram = entry.breakMark now q record)

/-- The entry to FAULT at a rise timeout, a blanking expiry or a supply alert (9.3) and the fault steps it takes for every lane
in the same step (7.5): the enables and timers of the rails, the cause, the notice cause; each DRIVING lane is broken and each
LOADING or ARMED lane released, and the closes of them all are in progress; the pixels they own are broken or released, and no
other pixel and no other lane moves; a fetch of a released lane ends; the cause and then the rail state go to the board writer;
and the frame in progress is abandoned by every link. That the two wait there before anything that those closes hand is the
model's choice (notes/assumptions/6.md), and so is that the lanes come to the closes in lane order (notes/assumptions/28.md).
-/
def Obligations.RailFaultsEndEveryLane : Prop :=
  ∀ (s : State) (c : Instr) (cause : RailCause),
    (c = .riseTimeout ∧ s.rails.state = .rising ∧ s.rails.riseTimer = true ∧ cause = .riseTimeout ∨
      c = .blankingExpiry ∧ s.rails.state = .on ∧ s.rails.blankingTimer = true ∧ cause = .railDrop ∨
      c = .supplyAlert true ∧ (s.rails.state = .rising ∨ s.rails.state = .on) ∧ cause = .supplyAlert) →
    s.dram.wf = true → s.PlaceLaw →
    (∃ bounds, validateSetup s.cfg bounds = .none) →
    let word := fun (m : Memory) x y => m.readWord (s.cfg.planeBase + 2 * (y * s.cfg.width + x))
    let owns := fun (n : Fin 32) x y => (s.lane n).rect.contains x y && (word s.dram x y).getLsbD 13 &&
      ((word s.dram x y).toNat / 256 % 32 == n.val)
    ∃ t, exec c s = .next t ∧
      t.rails = { s.rails with state := .fault, step := 0, stepTimer := false, riseTimer := false,
                               blankingTimer := false, idleTimer := .stopped, cause := cause } ∧
      t.frame = { s.frame with timer := false } ∧ t.notice = { s.notice with railFault := true } ∧
      (∀ k, t.link k = { s.link k with frame := .none }) ∧
      (∀ n,
        ((s.lane n).state = .free ∨ (s.lane n).state = .closing → t.lane n = s.lane n) ∧
        ((s.lane n).state = .loading ∨ (s.lane n).state = .armed →
          t.lane n = { s.lane n with state := .closing, ending := .railsDown cause, toClose := [] }) ∧
        ((s.lane n).state = .driving →
          t.lane n = { s.lane n with state := .closing, ending := .brokenByRails, toClose := (t.lane n).toClose })) ∧
      t.closing = s.closing ++ (List.finRange 32).filter (fun n =>
        (s.lane n).state == .loading || (s.lane n).state == .armed || (s.lane n).state == .driving) ∧
      (∀ x y, x < s.cfg.width → y < s.cfg.height →
        word t.dram x y =
          if ∃ n, (s.lane n).state = .driving ∧ owns n x y = true then
            (word s.dram x y &&& 0x00FF#16) ||| 0x4000#16
          else if ∃ n, ((s.lane n).state = .loading ∨ (s.lane n).state = .armed) ∧ owns n x y = true then
            word s.dram x y &&& 0x40FF#16
          else word s.dram x y) ∧
      (∀ f, s.admission.fetch = some f → (s.lane f.lane).state = .loading → t.admission.fetch = none) ∧
      t.board = { s.board with queue := s.board.queue ++
        if s.configured then [.header (.railCause cause), .header (.railState .fault)] else [] } ∧
      t.banks = s.banks ∧ t.monitor = s.monitor ∧ t.tally = s.tally ∧ t.port = s.port ∧
      t.admission.list = s.admission.list ∧ t.admission.exam = s.admission.exam

/-! ## The tally -/

/-- A tally counter by its configuration (11.1): the word's fields; a read that changes the event select zeroes the counter and
its flag and no other change does; an enabled counter counts the events it selects unless frozen in FAULT; and at a boundary a
level counter counts its condition, with edge only where the previous sample did not hold. -/
def Obligations.TallyCountersFollowTheirWords : Prop :=
  (∀ (w : Word) (c : TallyCounter),
    (c.configure w).config = ⟨w.getLsbD 0, w.getLsbD 1, w.getLsbD 2, w.getLsbD 3, w.toNat / 16 % 16, w.toNat / 256 % 64⟩ ∧
    (w.toNat / 16 % 16 = c.config.select → (c.configure w).value = c.value ∧ (c.configure w).previous = c.previous) ∧
    (w.toNat / 16 % 16 ≠ c.config.select → (c.configure w).value = 0 ∧ (c.configure w).previous = false)) ∧
  (∀ (c : TallyCounter) (inFault : Bool) (e : CountEvent) (n : Nat),
    (c.config.enable = true → c.config.select = e.select → (c.config.freeze = true → inFault = false) →
      (c.count inFault e n).value.toNat = (c.value.toNat + n) % 4294967296 ∧
      c.count inFault e n = { c with value := (c.count inFault e n).value }) ∧
    (c.config.enable = false ∨ c.config.select ≠ e.select ∨ c.config.freeze = true ∧ inFault = true →
      c.count inFault e n = c)) ∧
  (∀ (c : TallyCounter) (lanes depth : Nat),
    let level := if c.config.select = 8 then lanes else depth
    let holds := decide (c.config.threshold ≤ level) ^^ c.config.invert
    (c.config.enable = true → c.config.select = 8 ∨ c.config.select = 9 →
      (c.sample lanes depth).previous = holds ∧ (c.sample lanes depth).config = c.config ∧
      (holds = true → c.config.edge = false ∨ c.previous = false →
        (c.sample lanes depth).value.toNat = (c.value.toNat + 1) % 4294967296) ∧
      (holds = false ∨ c.config.edge = true ∧ c.previous = true → (c.sample lanes depth).value = c.value)) ∧
    (c.config.enable = false ∨ c.config.select ≠ 8 ∧ c.config.select ≠ 9 → c.sample lanes depth = c)) ∧
  ∀ (s : State) (n : Nat) (e : CountEvent) (i : Fin 4),
    (tallyEvent e n s).tally.counters[i] = s.tally.counters[i].count (decide (s.rails.state = .fault)) e n

/-! ## Segment links -/

/-- An echo word (8.4): discarded while the frame is being sent, after its judgement and where none is expected; else it
judges the frame, which the stream has carried to its last row by then. On a checked frame a match moves nothing but the
judgement; a mismatch adds 1 to the window count and the total, hands one SEGMENT_MISMATCHES event, and faults the link
exactly where 16 × the new count exceeds m × 16^e. The fault breaks the DRIVING lanes over the segment and releases the
LOADING and ARMED ones, each with the lowest-numbered segment it touches that is FAULTED or TRAINING, word by word of the
pixels they own (7.5). That a FAULTED link's window position and count stand at 0 is the model's reading
(notes/assumptions/25.md), and that a count past the window length, which an abandoned frame can bring, goes on is its choice
(notes/assumptions/37.md). -/
def Obligations.EchoesJudgeCheckedFrames : Prop :=
  ∀ (s : State) (k : Fin 4) (v : Word) (sending : Bool),
    (sending = true ∨ (s.link k).judged = true ∨ (s.link k).frame = .none → exec (.echoWord k v sending) s = .next s) ∧
    (sending = false → (s.link k).judged = false → (s.link k).frame = .checked →
      let u := streamRest s
      (v = (u.link k).expected → ∃ t, exec (.echoWord k v sending) s = .next t ∧
        t = { s with links := t.links, frame := u.frame } ∧
        t.link k = { u.link k with judged := true } ∧ ∀ j, j ≠ k → t.link j = u.link j) ∧
      (v ≠ (u.link k).expected → (s.link k).state ≠ .training →
        let limit := s.cfg.errorLimit.toNat / 16 * 16 ^ (s.cfg.errorLimit.toNat % 16)
        ∃ t, exec (.echoWord k v sending) s = .next t ∧ (∀ j, j ≠ k → t.link j = u.link j) ∧
          (∀ i : Fin 4, t.tally.counters[i] =
            s.tally.counters[i].count (decide (s.rails.state = .fault)) .segmentMismatches 1) ∧
          (16 * ((s.link k).windowCount + 1) ≤ limit → t = { s with links := t.links, frame := u.frame, tally := t.tally } ∧
            t.link k = { u.link k with
              judged := true, windowCount := (s.link k).windowCount + 1, total := (s.link k).total + 1 }) ∧
          (limit < 16 * ((s.link k).windowCount + 1) →
            t.link k = { u.link k with
              state := .faulted, judged := true, windowPosition := 0, windowCount := 0, frame := .none, sent := [],
              total := (s.link k).total + 1 } ∧
            t.notice = { s.notice with segmentFault := true } ∧ t.rails = s.rails ∧ t.frame = u.frame ∧
            (s.configured = true → t.board.queue = s.board.queue ++
              [.header (.segment k .faulted (s.link k).lastWindow ((s.link k).total + 1))]) ∧
            let touched := fun (n : Fin 32) (j : Fin 4) => j.val < s.cfg.segments ∧
              (s.lane n).rect.x < (j.val + 1) * (s.cfg.width / s.cfg.segments) ∧
              j.val * (s.cfg.width / s.cfg.segments) < (s.lane n).rect.x + (s.lane n).rect.w
            let bad := fun (n : Fin 32) (j : Fin 4) =>
              touched n j ∧ (j = k ∨ (s.link j).state = .faulted ∨ (s.link j).state = .training)
            (∀ n,
              let l := s.lane n
              (¬ touched n k ∨ l.state = .free ∨ l.state = .closing → t.lane n = l) ∧
              (touched n k → l.state = .driving →
                t.lane n = { l with state := .closing, ending := .brokenBySegment k, toClose := (t.lane n).toClose }) ∧
              (∀ j, touched n k → l.state = .loading ∨ l.state = .armed → bad n j → (∀ i, i < j → ¬ bad n i) →
                t.lane n = { l with state := .closing, ending := .segmentFault j, toClose := [] }) ∧
              (n ∈ t.closing ↔ n ∈ s.closing ∨ (t.lane n).state = .closing ∧ l.state ≠ .closing)) ∧
            (s.dram.wf = true → s.PlaceLaw → (∃ bounds, validateSetup s.cfg bounds = .none) →
              let word := fun (m : Memory) x y => m.readWord (s.cfg.planeBase + 2 * (y * s.cfg.width + x))
              let owns := fun (n : Fin 32) x y => touched n k ∧ (s.lane n).rect.contains x y = true ∧
                (word s.dram x y).getLsbD 13 = true ∧ (word s.dram x y).toNat / 256 % 32 = n.val
              ∀ x y, x < s.cfg.width → y < s.cfg.height →
                word t.dram x y =
                  if ∃ n, (s.lane n).state = .driving ∧ owns n x y then (word s.dram x y &&& 0x00FF#16) ||| 0x4000#16
                  else if ∃ n, ((s.lane n).state = .loading ∨ (s.lane n).state = .armed) ∧ owns n x y then
                    word s.dram x y &&& 0x40FF#16
                  else word s.dram x y))))

/-- Windows and training (8.4, 8.5). At the boundary that ends a checked frame the position rises by 1 and at the window length
the count is published and both return to 0; a frame with no echo by then has counted as a mismatch first, and a training frame
with none is judged one. That a link whose training fails holds the window count 0 is the model's reading
(notes/assumptions/25.md); that the rail supervisor hears of it only after all four links have ended their frames, so that
ending this one leaves the rails, is its choice (notes/assumptions/32.md). A training frame begun with the rails ON sends the
training pattern and expects its check value (8.5). A judged training frame adds 1 to the attempt's frames; a match adds 1 to
the run and a mismatch ends it; K matches in a row bring the link UP with its progress cleared and its total kept; else 4 × K
frames fail the attempt, and the A-th failed attempt faults the link again, setting SEGMENT_FAULT. -/
def Obligations.WindowsAndTrainingFollowTheirCounts : Prop :=
  (∀ (s : State) (k : Fin 4), (s.link k).frame = .checked → (s.link k).judged = true →
    let t := endFrame k s
    ((s.link k).windowPosition + 1 < s.cfg.window →
      t = { s with links := t.links } ∧
        t.link k = { s.link k with windowPosition := (s.link k).windowPosition + 1 }) ∧
    (s.cfg.window ≤ (s.link k).windowPosition + 1 →
      t.link k = { s.link k with lastWindow := (s.link k).windowCount, windowCount := 0, windowPosition := 0 } ∧
      (s.configured = true → t.board.queue = s.board.queue ++
        [.header (.segment k (s.link k).state (s.link k).windowCount (s.link k).total)]))) ∧
  (∀ (s : State) (k : Fin 4), (s.link k).frame = .checked → (s.link k).judged = false →
    16 * ((s.link k).windowCount + 1) ≤ s.cfg.errorLimit.toNat / 16 * 16 ^ (s.cfg.errorLimit.toNat % 16) →
    let t := endFrame k s
    let l := { s.link k with judged := true, total := (s.link k).total + 1 }
    t = { s with links := t.links, tally := t.tally, board := t.board } ∧
    (∀ i : Fin 4, t.tally.counters[i] =
      s.tally.counters[i].count (decide (s.rails.state = .fault)) .segmentMismatches 1) ∧
    t.link k = if (s.link k).windowPosition + 1 < s.cfg.window then
        { l with windowPosition := (s.link k).windowPosition + 1, windowCount := (s.link k).windowCount + 1 }
      else { l with windowPosition := 0, windowCount := 0, lastWindow := (s.link k).windowCount + 1 }) ∧
  (∀ (s : State) (k : Fin 4), (s.link k).frame = .training → (s.link k).judged = false → 1 ≤ s.cfg.matchCount →
    let t := endFrame k s
    let frames := (s.link k).attemptFrames + 1
    (frames < 4 * s.cfg.matchCount → t = { s with links := t.links } ∧
      t.link k = { s.link k with judged := true, consecutive := 0, attemptFrames := frames }) ∧
    (4 * s.cfg.matchCount ≤ frames → (s.link k).failedAttempts + 1 < s.cfg.attempts → t = { s with links := t.links } ∧
      t.link k = { s.link k with judged := true, consecutive := 0, attemptFrames := 0,
                                 failedAttempts := (s.link k).failedAttempts + 1 }) ∧
    (4 * s.cfg.matchCount ≤ frames → s.cfg.attempts ≤ (s.link k).failedAttempts + 1 →
      (t.link k).state = .faulted ∧ t.notice = { s.notice with segmentFault := true } ∧ t.rails = s.rails)) ∧
  (∀ (s : State) (k : Fin 4), s.rails.state = .on → (s.link k).state = .training →
    let t := beginFrame k s
    t = { s with links := t.links } ∧ (∀ j, j ≠ k → t.link j = s.link j) ∧
    t.link k = { s.link k with frame := .training, judged := false, sent := s.cfg.pattern,
                               expected := checkValue s.cfg.pattern }) ∧
  ∀ (s : State) (k : Fin 4) (v : Word), (s.link k).judged = false → (s.link k).frame = .training → s.pins.alert = false →
    let run := if v = (s.link k).expected then (s.link k).consecutive + 1 else 0
    let frames := (s.link k).attemptFrames + 1
    ∃ t, exec (.echoWord k v false) s = .next t ∧ t.tally.counters = s.tally.counters ∧
      (t.link k).windowCount = (if s.cfg.matchCount ≤ run ∨ 4 * s.cfg.matchCount ≤ frames ∧
        s.cfg.attempts ≤ (s.link k).failedAttempts + 1 then 0 else (s.link k).windowCount) ∧
      (t.link k).total = (s.link k).total ∧ (t.link k).lastWindow = (s.link k).lastWindow ∧
      (s.cfg.matchCount ≤ run → (t.link k).state = .up ∧ (t.link k).windowPosition = 0 ∧
        (t.link k).consecutive = 0 ∧ (t.link k).attemptFrames = 0 ∧ (t.link k).failedAttempts = 0 ∧
        t.notice = s.notice) ∧
      (run < s.cfg.matchCount → 4 * s.cfg.matchCount ≤ frames → s.cfg.attempts ≤ (s.link k).failedAttempts + 1 →
        (t.link k).state = .faulted ∧ t.notice = { s.notice with segmentFault := true }) ∧
      (run < s.cfg.matchCount → 4 * s.cfg.matchCount ≤ frames → (s.link k).failedAttempts + 1 < s.cfg.attempts →
        t = { s with links := t.links } ∧ t.link k = { s.link k with
          judged := true, consecutive := 0, attemptFrames := 0,
          failedAttempts := (s.link k).failedAttempts + 1 }) ∧
      (run < s.cfg.matchCount → frames < 4 * s.cfg.matchCount →
        t = { s with links := t.links } ∧
          t.link k = { s.link k with judged := true, consecutive := run, attemptFrames := frames })

/-- The echo check value and the stream (8.3, 8.4, 7.3). The reference values of R134 hold; the value over a message followed
by its own check value, high byte first, is 0; two messages that differ in one byte have different values. Between commands
the stream works out one pixel's code after another, and so comes to the same as in one go. From the row it has come to, each
checked link takes the frame's further rows, W/(4n) bytes each, four codes a byte with the leftmost pixel lowest, its expected
value going on over them: each code is the entry's code at f where the pixel is owned by a lane that is DRIVING then with f
below ℓ, and ZERO elsewhere, so that after a fault step the rows still to be read carry ZERO for its lanes, and the rows sent
stay. -/
def Obligations.StreamsCarryTheCodesAndTheirCheckValue : Prop :=
  (checkValue [0x00#8] = 0xE1F0#16 ∧ checkValue [0x01#8] = 0xF1D1#16 ∧ checkValue [0x00#8, 0x00#8] = 0x1D0F#16) ∧
  (∀ m : List Byte, checkValue (m ++ [(checkValue m).extractLsb' 8 8, (checkValue m).extractLsb' 0 8]) = 0) ∧
  (∀ (m n : List Byte) (a b : Byte), a ≠ b → checkValue (m ++ a :: n) ≠ checkValue (m ++ b :: n)) ∧
  (∀ s : State, s.dram.wf = true → s.frame.codes.length < s.cfg.width →
    streamRest (streamTick s) = streamRest s ∧
    (s.streaming = true → s.frame.codes.length + 1 < s.cfg.width → ∃ code, streamTick s =
      { s with frame := { s.frame with codes := s.frame.codes ++ [code] } } ∧
      code = pixelCode s (s.dram.readWord (s.cfg.planeBase + 2 * (s.frame.row * s.cfg.width + s.frame.codes.length))))) ∧
  ∀ (s : State) (k : Fin 4), s.dram.wf = true → 16 ∣ segmentWidth s.cfg → s.cfg.width = s.cfg.segments * segmentWidth s.cfg →
    k.val < s.cfg.segments → (s.link k).frame = .checked → s.frame.codes = [] → s.frame.row ≤ s.cfg.height →
    let t := streamRest s
    t = { s with links := t.links, frame := { s.frame with row := s.cfg.height } } ∧
    (∀ j, (s.link j).frame ≠ .checked → t.link j = s.link j) ∧
    ∃ more, t.link k = { s.link k with
        sent := (s.link k).sent ++ more, expected := more.foldl crcByte (s.link k).expected } ∧
      more.length = (s.cfg.height - s.frame.row) * (segmentWidth s.cfg / 4) ∧
      ∀ x y, x < segmentWidth s.cfg → s.frame.row ≤ y → y < s.cfg.height →
        let w := s.dram.readWord (s.cfg.planeBase + 2 * (y * s.cfg.width + (k.val * segmentWidth s.cfg + x)))
        let l := s.lane (Fin.ofNat 32 (w.toNat / 256 % 32))
        let entry := (s.banks.get l.bank).entry l.mode (if w.getLsbD 14 then 0 else w.toNat % 16) (w.toNat / 16 % 16)
        let sent := (more.getD ((y - s.frame.row) * (segmentWidth s.cfg / 4) + x / 4) 0).toNat / 4 ^ (x % 4) % 4
        sent = if w.getLsbD 13 = true ∧ l.state = .driving then
            (match entry[l.index]? with | some .raise => 1 | some .lower => 2 | some .zero => 0 | none => 0)
          else 0

/-! ## Panel rails -/

/-- The rise and power-good (9.2, 9.3), with no alert asserted: each step delay asserts the next enable and starts the next
delay; after the fifth the rise timer runs, and power-good, found asserted or asserted later, brings the rails to ON, where
the idle hold starts if nothing holds it and READY triggers a pass. In ON the release of power-good starts the blanking timer,
and its assertion before the expiry stops it and counts one RAIL_GLITCHES event. In OFF and in FAULT the lines move alone. A
delay of 0 passes at once (notes/assumptions/5.md). -/
def Obligations.RailsRiseStepByStep : Prop :=
  ∀ s : State, s.pins.alert = false →
    (s.rails.state = .rising → s.rails.stepTimer = true →
      (s.rails.step < 4 → s.cfg.stepDelays.getD (s.rails.step + 1) 0 ≠ 0 →
        exec .riseStep s = .next { s with
          rails := { s.rails with step := s.rails.step + 1, stepTimer := true, riseTimer := false } }) ∧
      (s.rails.step = 4 → s.pins.powerGood = false →
        exec .riseStep s = .next { s with rails := { s.rails with step := 5, stepTimer := false, riseTimer := true } })) ∧
    (∀ c : Instr,
      (c = .riseStep ∧ s.rails.stepTimer = true ∧ s.rails.step = 4 ∧ s.pins.powerGood = true ∨
        c = .powerGoodAsserted ∧ s.rails.stepTimer = false ∧ s.rails.step = 5 ∧ s.rails.riseTimer = true) →
      s.rails.state = .rising → s.cfg.idleHold ≠ 0 →
      ∃ t, exec c s = .next t ∧
        t = { s with pins := { s.pins with powerGood := true }, rails := t.rails, board := t.board,
                     admission := if s.port.partState = .ready then s.admission.trigger else s.admission } ∧
        t.rails = { s.rails with
          state := .on, step := 5, stepTimer := false, riseTimer := false,
          idleTimer := if s.rails.lanesBusy = false ∧ s.rails.training = false then .running
            else if s.rails.idleTimer = .running then .stopped else s.rails.idleTimer } ∧
        t.board = { s.board with
          queue := s.board.queue ++ if s.configured then [.header (.railState .on)] else [] }) ∧
    (s.rails.state = .on →
      exec .powerGoodReleased s = .next { s with
        pins := { s.pins with powerGood := false }, rails := { s.rails with blankingTimer := true } } ∧
      (s.rails.blankingTimer = true →
        exec .powerGoodAsserted s = .next { s with
          pins := { s.pins with powerGood := true }, rails := { s.rails with blankingTimer := false },
          tally := { s.tally with counters := s.tally.counters.map (TallyCounter.count false .railGlitches 1) } })) ∧
    (s.rails.state ≠ .on →
      exec .powerGoodReleased s = .next { s with pins := { s.pins with powerGood := false } }) ∧
    (s.rails.state = .fault ∨ s.rails.state = .off ∧ s.rails.demandHeld = false →
      exec .powerGoodAsserted s = .next { s with pins := { s.pins with powerGood := true } } ∧
      ∀ b, exec (.supplyAlert b) s = .next { s with pins := { s.pins with alert := b } })

/-- The fall, the idle hold and the ways back to OFF (9.3, 9.4). The hold's expiry enters FALLING with all five enables
asserted, stops the frame timer, abandons the links' frames and a loss being blanked; each step delay releases the next enable
in reverse order; after the last the rails are OFF, with a pass in READY, the tally's publication, and the rise at once where a
demand is held. RAILS_ON, accepted, takes the rails from FAULT to OFF with the arrival's effects and keeps the last fault
cause: a pass in READY, the tally's publication, and, with a demand held or a link TRAINING, the rise at once, which a supply
that still asserts its alert faults again. That the rail state waits at the board writer before the publication is the model's
choice (notes/assumptions/6.md), and so is that the publication is handed in the arrival's own step, before the pass examines
anything (notes/assumptions/40.md); that the publication is one request is its reading (notes/assumptions/30.md), and so is
that the hold's timer is stopped in FALLING (notes/assumptions/31.md). -/
def Obligations.RailsComeToOffStepByStepOrByCommand : Prop :=
  (∀ s : State,
    (s.rails.state = .on → s.rails.idleTimer = .running → s.cfg.stepDelays.getD 4 0 ≠ 0 →
      ∃ t, exec .idleHoldExpiry s = .next t ∧
        t = { s with rails := t.rails, frame := { s.frame with timer := false }, links := t.links,
                     board := { s.board with
                       queue := s.board.queue ++ if s.configured then [.header (.railState .falling)] else [] } } ∧
        t.rails = { s.rails with
          state := .falling, step := 5, stepTimer := true, blankingTimer := false, idleTimer := .stopped } ∧
        ∀ k, t.link k = { s.link k with frame := .none }) ∧
    (s.rails.state = .falling → s.rails.stepTimer = true →
      (2 ≤ s.rails.step → s.cfg.stepDelays.getD (s.rails.step - 2) 0 ≠ 0 →
        exec .fallStep s = .next { s with rails := { s.rails with step := s.rails.step - 1 } }) ∧
      (s.rails.step ≤ 1 → s.configured = true → (∀ k, (s.link k).state ≠ .training) →
        (s.rails.demandHeld = false →
          exec .fallStep s = .next { s with
            rails := { s.rails with state := .off, step := 0, stepTimer := false },
            admission := if s.port.partState = .ready then s.admission.trigger else s.admission,
            tally := { s.tally with stamp := s.frame.number },
            board := { s.board with queue := s.board.queue ++
              [.header (.railState .off),
                .header (.tally (s.tally.counters.map TallyCounter.value) s.frame.number)] } }) ∧
        (s.rails.demandHeld = true → s.pins.alert = false → s.cfg.stepDelays.getD 0 0 ≠ 0 →
          ∃ t, exec .fallStep s = .next t ∧ t.rails.state = .rising ∧ t.rails.step = 0 ∧ t.rails.stepTimer = true ∧
            t.rails.demandHeld = false ∧ t.frame.timer = true ∧ t.lanes = s.lanes ∧ t.dram = s.dram)))) ∧
  ∀ s : State, s.pins.reset = false → s.configured = true → s.rails.state = .fault →
    (s.rails.demandHeld = false → (∀ k, (s.link k).state ≠ .training) →
      exec .railsOn s = .next { s with
        port := { s.port with result := .accepted },
        rails := { s.rails with state := .off, step := 0, stepTimer := false },
        admission := if s.port.partState = .ready then s.admission.trigger else s.admission,
        tally := { s.tally with stamp := s.frame.number },
        board := { s.board with queue := s.board.queue ++
          [.header (.railState .off),
            .header (.tally (s.tally.counters.map TallyCounter.value) s.frame.number)] } }) ∧
    ((s.rails.demandHeld = true ∨ ∃ k, (s.link k).state = .training) →
      (s.pins.alert = false → s.cfg.stepDelays.getD 0 0 ≠ 0 →
        ∃ t, exec .railsOn s = .next t ∧ t.rails.state = .rising ∧ t.rails.step = 0 ∧ t.rails.stepTimer = true ∧
          t.rails.demandHeld = false ∧ t.rails.cause = s.rails.cause ∧ t.frame.timer = true ∧ t.lanes = s.lanes ∧
          t.dram = s.dram) ∧
      (s.pins.alert = true →
        ∃ t, exec .railsOn s = .next t ∧ t.rails.state = .fault ∧ t.rails.cause = .supplyAlert ∧
          t.frame.timer = false ∧ t.notice.railFault = true))

/-- The wake input (9.5): once the setup is in service, which for the model is from READY on (notes/assumptions/19.md: its
reading), a low starts the qualifier and a high returns it to idle; the event spends it, and acts in READY with the rails not
in FAULT: it triggers a scan and, from OFF, raises the rails, in FALLING holds a demand, in ON restarts the idle hold. A delay
of 0 passes at once, so that the rails come to ON in the same step where every delay is 0 and power-good stands
(notes/assumptions/5.md: the model's choice). -/
def Obligations.WakeEventsScanAndRaiseTheRails : Prop :=
  ∀ s : State,
    (s.configured = true → s.rails.wake = .idle →
      exec .wakeInputLow s = .next { s with
        pins := { s.pins with wakeLow := true }, rails := { s.rails with wake := .measuring } }) ∧
    (s.configured = false ∨ s.rails.wake ≠ .idle →
      exec .wakeInputLow s = .next { s with pins := { s.pins with wakeLow := true } }) ∧
    exec .wakeInputHigh s = .next { s with
      pins := { s.pins with wakeLow := false }, rails := { s.rails with wake := .idle } } ∧
    (s.rails.wake ≠ .measuring → exec .wakeEvent s = .next s) ∧
    (s.rails.wake = .measuring →
      (s.port.partState ≠ .ready ∨ s.rails.state = .fault →
        exec .wakeEvent s = .next { s with rails := { s.rails with wake := .spent } }) ∧
      (s.port.partState = .ready →
        (s.rails.state = .rising → exec .wakeEvent s = .next { s with
          rails := { s.rails with wake := .spent }, board := s.board.trigger }) ∧
        (s.rails.state = .falling → exec .wakeEvent s = .next { s with
          rails := { s.rails with wake := .spent, demandHeld := true }, board := s.board.trigger }) ∧
        (s.rails.state = .on → s.pins.alert = false → s.cfg.idleHold ≠ 0 → exec .wakeEvent s = .next { s with
          rails := { s.rails with
            wake := .spent,
            idleTimer := if s.rails.lanesBusy = false ∧ s.rails.training = false then .running
              else if s.rails.idleTimer = .running then .stopped else s.rails.idleTimer },
          board := s.board.trigger }) ∧
        (s.rails.state = .off → s.pins.alert = false → s.cfg.stepDelays.getD 0 0 ≠ 0 →
          exec .wakeEvent s = .next { s with
            rails := { s.rails with wake := .spent, state := .rising, step := 0, stepTimer := true, riseTimer := false,
                                    demandHeld := false },
            frame := { s.frame with timer := true },
            board := { s.board.trigger with queue := s.board.queue ++ [.header (.railState .rising)] } }) ∧
        (s.rails.state = .off → s.pins.alert = false → (∀ i < 5, s.cfg.stepDelays.getD i 0 = 0) →
          s.pins.powerGood = true → s.cfg.idleHold ≠ 0 →
          ∃ t, exec .wakeEvent s = .next t ∧ t.rails.state = .on ∧ t.rails.step = 5 ∧ t.frame.timer = true ∧
            t.admission = s.admission.trigger ∧
            t.board = { s.board.trigger with
              queue := s.board.queue ++ [.header (.railState .rising), .header (.railState .on)] })))

/-! ## The ledger and the formats -/

/-- The settle, with which every ledger operation begins (R14): the residue is halved once per elapsed tick toward zero, the
stamp becomes the tick, P and U stay; 15 ticks leave nothing of any residue, and a whole wrap of the stamp leaves it
undecayed. -/
def Obligations.SettlesHalveTheResiduePerTick : Prop :=
  (∀ (e : LedgerEntry) (now : Nat), now < 65536 → e.stamp < 65536 → e.residue.natAbs ≤ 32767 →
    let elapsed := (now + 65536 - e.stamp) % 65536
    let k := min elapsed 15
    let t := e.settle now
    t.residue = e.residue.sign * ((e.residue.natAbs / 2 ^ k : Nat) : Int) ∧ t.stamp = now ∧ t.partials = e.partials ∧
    t.unknown = e.unknown ∧ (elapsed = 0 → t = e) ∧ (15 ≤ elapsed → t.residue = 0) ∧
    elapsed ≤ 65535 ∧ (∀ whole r, e.apply now whole r = t.apply now whole r) ∧
    (∀ q r, e.breakMark now q r = t.breakMark now q r)) ∧
  ∀ (s : State) (tx ty : Nat) (acc : Memory × LedgerReading), tx < s.cfg.width / 16 →
    (readEntry s.cfg tx ty (settleAndRead s.cfg s.tick (tx, ty) acc).1).stamp = s.monitor.ticks.toNat % 65536

/-- The ghost score of a settled entry (R16): S = floor(|R| / 16) + P × Wp, with its terms' ranges; with Wp = 0 it measures
residue alone. The ghost condition (R17): 16 × S ≥ m × 16^e over the whole range of both, with the rule's three consequences
and its table of the smallest score that meets a threshold byte. -/
def Obligations.GhostScoreAndConditionAreExact : Prop :=
  (∀ (c : Setup) (e : LedgerEntry), e.residue.natAbs ≤ 32767 → e.partials ≤ 255 → c.partialWeight ≤ 15 →
     ghostScore c e = e.residue.natAbs / 16 + e.partials * c.partialWeight ∧ e.residue.natAbs / 16 ≤ 2047 ∧
     e.partials * c.partialWeight ≤ 3825 ∧ ghostScore c e ≤ 5872 ∧
     (c.partialWeight = 0 → ghostScore c e = e.residue.natAbs / 16)) ∧
  ((∀ (c : Setup) (score : Nat),
     let m := c.ghostThreshold.toNat / 16
     let e := c.ghostThreshold.toNat % 16
     (meetsGhost c score = true ↔ m * 16 ^ e ≤ 16 * score) ∧
     (m = 0 → meetsGhost c score = true) ∧
     (e = 4 → m = 1 → (meetsGhost c score = true ↔ 4096 ≤ score)) ∧
     (score ≤ 5872 → (e = 4 ∧ 2 ≤ m ∨ 5 ≤ e ∧ 1 ≤ m) → meetsGhost c score = false)) ∧
   (∀ row ∈ [(0x00#8, 0), (0x07#8, 0), (0x10#8, 1), (0x31#8, 3), (0x81#8, 8), (0x42#8, 64), (0xA2#8, 160), (0x43#8, 1024),
     (0xF3#8, 3840), (0x14#8, 4096)], ∀ (c : Setup) (score : Nat), c.ghostThreshold = row.1 →
       (meetsGhost c score = true ↔ row.2 ≤ score)) ∧
   ∀ row ∈ [0x24#8, 0x15#8], ∀ (c : Setup) (score : Nat), c.ghostThreshold = row → score ≤ 5872 →
     meetsGhost c score = false)

/-- The ledger's operations (1.2). The apply of a DONE lane's close and the break-mark of a broken one on one entry: the sum
clamped, halved and P cleared where the lane is CLEAN and its rectangle contains the tile whole, P else raised and held at
255; U less the cleared pixels, or with the broken ones added and P at 255 where a pixel was left; R, P and U stay in their
ranges where no more pixels are cleared than U counts and no more broken than the tile holds besides. And settle-and-read over
a rectangle (R15, R82): each tile that the rectangle intersects is settled and written back, every other entry and byte stays,
and the reading tells whether any of them holds U > 0, whether any meets the ghost condition, and the highest score. -/
def Obligations.LedgerOperationsKeepTheirRanges : Prop :=
  (∀ (e : LedgerEntry) (now tx ty : Nat) (r : ScratchRecord) (mode : Mode) (rect : Rect),
    e.residue.natAbs ≤ 32767 → e.partials ≤ 255 →
    let whole := mode == .clean && tileInside rect tx ty
    let sum := (e.settle now).residue + r.net
    let kept := if sum < -32767 then -32767 else if 32767 < sum then 32767 else sum
    (tileInside rect tx ty = true ↔ ∀ x y, (tileRect tx ty).contains x y = true → rect.contains x y = true) ∧
    (whole = false → e.apply now whole r = ⟨kept, min (e.partials + 1) 255, now, e.unknown - r.cleared⟩) ∧
    (whole = true →
      e.apply now whole r = ⟨kept.sign * ((kept.natAbs / 2 : Nat) : Int), 0, now, e.unknown - r.cleared⟩) ∧
    (∀ q, 0 < q → e.breakMark now q r = ⟨(e.settle now).residue, 255, now, e.unknown + q - r.cleared⟩) ∧
    (e.breakMark now 0 r = ⟨(e.settle now).residue, e.partials, now, e.unknown - r.cleared⟩) ∧
    ((e.settle now).residue.natAbs ≤ 32767 ∧ (e.apply now whole r).residue.natAbs ≤ 32767 ∧
      (e.apply now whole r).partials ≤ 255 ∧ ∀ q, (e.breakMark now q r).residue.natAbs ≤ 32767 ∧
        (e.breakMark now q r).partials ≤ 255) ∧
    (r.cleared ≤ e.unknown → e.unknown ≤ 256 →
      (0 ≤ (e.apply now whole r).unknown ∧ (e.apply now whole r).unknown ≤ 256) ∧
      ∀ q : Nat, e.unknown + q - r.cleared ≤ 256 →
        0 ≤ (e.breakMark now q r).unknown ∧ (e.breakMark now q r).unknown ≤ 256)) ∧
  ∀ (c : Setup) (now : Nat) (r : Rect) (m : Memory), m.wf = true → now < 65536 → 16 ∣ c.width → 16 ∣ c.height →
    1 ≤ r.w → 1 ≤ r.h → r.x + r.w ≤ c.width → r.y + r.h ≤ c.height →
    let g := ledgerRead c now r m
    let entry := fun tx ty => (readEntry c tx ty m).settle now
    let tile := fun tx ty => (tileRect tx ty).overlaps r = true
    (∀ tx ty, tx < c.width / 16 → ty < c.height / 16 →
      (tile tx ty → readEntry c tx ty g.1 = entry tx ty) ∧
      (¬ tile tx ty → readEntry c tx ty g.1 = readEntry c tx ty m)) ∧
    (∀ a, a < c.ledgerBase ∨ c.ledgerBase + 8 * ((c.width / 16) * (c.height / 16)) ≤ a → g.1.read a = m.read a) ∧
    (g.2.anyUnknown = true ↔ ∃ tx ty, tile tx ty ∧ 0 < (entry tx ty).unknown) ∧
    (g.2.anyGhost = true ↔ ∃ tx ty, tile tx ty ∧ meetsGhost c (ghostScore c (entry tx ty)) = true) ∧
    (∀ tx ty, tile tx ty → ghostScore c (entry tx ty) ≤ g.2.highest) ∧
    ∃ tx ty, tile tx ty ∧ g.2.highest = ghostScore c (entry tx ty)

/-- What each writer makes of a pixel word (1.1), and that entries and scratch records read back as written (10.7): the claim
sets target, lane and owned and keeps current and unknown; the completion takes the target for current and clears the rest;
the break sets unknown and the release keeps it, both keeping the levels; every written word has bit 15 clear. -/
def Obligations.FormatsReadBackAsWritten : Prop :=
  (∀ (w : Word) (target : BitVec 4) (n : Fin 32),
    let at_ := fun (v : Word) => (v.toNat % 16, v.toNat / 16 % 16, v.toNat / 256 % 32, v.getLsbD 13, v.getLsbD 14, v.getLsbD 15)
    let old := at_ w
    at_ (pixelClaim w target n) = (old.1, target.toNat, n.val, true, w.getLsbD 14, false) ∧
    at_ (pixelComplete w) = (old.2.1, old.2.1, 0, false, false, false) ∧
    at_ (pixelBreak w) = (old.1, old.2.1, 0, false, true, false) ∧
    at_ (pixelRelease w) = (old.1, old.2.1, 0, false, w.getLsbD 14, false) ∧
    pixelFrom w = if w.getLsbD 14 then 0 else w.toNat % 16) ∧
  (∀ e : LedgerEntry, e.residue.natAbs ≤ 32767 → e.partials ≤ 255 → e.stamp < 65536 → 0 ≤ e.unknown → e.unknown ≤ 256 →
    LedgerEntry.decode e.encode = e ∧ e.encode.length = 8 ∧ e.encode.getD 3 1#8 = 0) ∧
  (∀ r : ScratchRecord, r.net.natAbs ≤ 16384 → r.cleared ≤ 256 →
    ScratchRecord.decode r.encode = r ∧ r.encode.length = 4) ∧
  ∀ (m : Memory) (a : Nat), m.wf = true →
    let e := LedgerEntry.decode (m.readBytes a 8)
    let r := ScratchRecord.decode (m.readBytes a 4)
    e.residue = (m.readWord a).toInt ∧ e.partials = (m.read (a + 2)).toNat ∧ e.stamp = (m.readWord (a + 4)).toNat ∧
    e.unknown = (m.readWord (a + 6)).toNat ∧ r.net = (m.readWord a).toInt ∧
    r.cleared = (m.readWord (a + 2)).toNat % 512 ∧ r.driven = (m.readWord (a + 2)).getLsbD 15
end

