-- ==== Sys2Proof/Laws/State.lean ====
section
/-! SUPPORT. What each hand-off and each update of a block leaves as it was, field by field, and what it does to the field it
concerns. Every lemma is a simp rule, so that no later proof unfolds a record update. -/

namespace Sys2Proof.Machine

/-- A run of steps keeps what each step keeps. -/
theorem foldl_keeps {α β σ : Type} (g : σ → β) (f : σ → α → σ) (h : ∀ s a, g (f s a) = g s) (l : List α) (s : σ) :
    g (l.foldl f s) = g s := by
  induction l generalizing s with
  | nil => rfl
  | cons a rest ih => rw [List.foldl_cons, ih, h]

/-! ## What changes -/

@[simp] theorem triggerPass_admission (s : State) :
    (triggerPass s).admission = if s.port.partState = .ready then s.admission.trigger else s.admission := by
  unfold triggerPass; split <;> simp [*]

@[simp] theorem triggerScan_board (s : State) :
    (triggerScan s).board = if s.port.partState = .ready then s.board.trigger else s.board := by
  unfold triggerScan; split <;> simp [*]

@[simp] theorem handRequest_board (r : BoardRequest) (s : State) :
    (handRequest r s).board = { s.board with queue := s.board.queue ++ [r] } := rfl

@[simp] theorem handHeader_board (w : HeaderWrite) (s : State) :
    (handHeader w s).board =
      { s.board with queue := s.board.queue ++ if s.configured then [.header w] else [] } := by
  unfold handHeader; split <;> simp [*]

@[simp] theorem setSlot_board (i : Fin 64) (r : Slot) (s : State) :
    (setSlot i r s).board = { s.board with slots := s.board.slots.set i.val r } := rfl

@[simp] theorem handFinish_board (f : Finish) (s : State) :
    (handFinish f s).board =
      { s.board with
        slots := s.board.slots.set f.slot.val { s.slot f.slot with seen := f.seen, status := .finished },
        queue := s.board.queue ++ [.finish f] } := rfl

theorem setSlot_slot (i j : Fin 64) (r : Slot) (s : State) : (setSlot i r s).slot j = if i = j then r else s.slot j := by
  simp only [State.slot, setSlot, Fin.getElem_fin, Vector.getElem_set, Fin.ext_iff]

theorem setLane_lane (i j : Fin 32) (r : Lane) (s : State) : (setLane i r s).lane j = if i = j then r else s.lane j := by
  simp only [State.lane, setLane, Fin.getElem_fin, Vector.getElem_set, Fin.ext_iff]

theorem setLink_link (i j : Fin 4) (r : Link) (s : State) : (setLink i r s).link j = if i = j then r else s.link j := by
  simp only [State.link, setLink, Fin.getElem_fin, Vector.getElem_set, Fin.ext_iff]

@[simp] theorem setLane_lane_same (i : Fin 32) (r : Lane) (s : State) : (setLane i r s).lane i = r := by simp [setLane_lane]

@[simp] theorem setSlot_slot_same (i : Fin 64) (r : Slot) (s : State) : (setSlot i r s).slot i = r := by simp [setSlot_slot]

@[simp] theorem setLink_link_same (i : Fin 4) (r : Link) (s : State) : (setLink i r s).link i = r := by simp [setLink_link]

@[simp] theorem setPartState_port (p : PartState) (s : State) :
    (setPartState p s).port = { s.port with partState := p } := by
  unfold setPartState handHeader; split <;> rfl

/-! ## What stays as it was -/

@[simp] theorem triggerPass_pending (s : State) : (triggerPass s).pending = s.pending := by unfold triggerPass; split <;> rfl
@[simp] theorem triggerPass_dram (s : State) : (triggerPass s).dram = s.dram := by unfold triggerPass; split <;> rfl
@[simp] theorem triggerPass_pins (s : State) : (triggerPass s).pins = s.pins := by unfold triggerPass; split <;> rfl
@[simp] theorem triggerPass_port (s : State) : (triggerPass s).port = s.port := by unfold triggerPass; split <;> rfl
@[simp] theorem triggerPass_notice (s : State) : (triggerPass s).notice = s.notice := by unfold triggerPass; split <;> rfl
@[simp] theorem triggerPass_start (s : State) : (triggerPass s).start = s.start := by unfold triggerPass; split <;> rfl
@[simp] theorem triggerPass_setup (s : State) : (triggerPass s).setup = s.setup := by unfold triggerPass; split <;> rfl
@[simp] theorem triggerPass_banks (s : State) : (triggerPass s).banks = s.banks := by unfold triggerPass; split <;> rfl
@[simp] theorem triggerPass_monitor (s : State) : (triggerPass s).monitor = s.monitor := by unfold triggerPass; split <;> rfl
@[simp] theorem triggerPass_board (s : State) : (triggerPass s).board = s.board := by unfold triggerPass; split <;> rfl
@[simp] theorem triggerPass_lanes (s : State) : (triggerPass s).lanes = s.lanes := by unfold triggerPass; split <;> rfl
@[simp] theorem triggerPass_closing (s : State) : (triggerPass s).closing = s.closing := by unfold triggerPass; split <;> rfl
@[simp] theorem triggerPass_frame (s : State) : (triggerPass s).frame = s.frame := by unfold triggerPass; split <;> rfl
@[simp] theorem triggerPass_links (s : State) : (triggerPass s).links = s.links := by unfold triggerPass; split <;> rfl
@[simp] theorem triggerPass_rails (s : State) : (triggerPass s).rails = s.rails := by unfold triggerPass; split <;> rfl
@[simp] theorem triggerPass_tally (s : State) : (triggerPass s).tally = s.tally := by unfold triggerPass; split <;> rfl
@[simp] theorem triggerPass_resets (s : State) : (triggerPass s).resets = s.resets := by unfold triggerPass; split <;> rfl
@[simp] theorem triggerScan_pending (s : State) : (triggerScan s).pending = s.pending := by unfold triggerScan; split <;> rfl
@[simp] theorem triggerScan_dram (s : State) : (triggerScan s).dram = s.dram := by unfold triggerScan; split <;> rfl
@[simp] theorem triggerScan_pins (s : State) : (triggerScan s).pins = s.pins := by unfold triggerScan; split <;> rfl
@[simp] theorem triggerScan_port (s : State) : (triggerScan s).port = s.port := by unfold triggerScan; split <;> rfl
@[simp] theorem triggerScan_notice (s : State) : (triggerScan s).notice = s.notice := by unfold triggerScan; split <;> rfl
@[simp] theorem triggerScan_start (s : State) : (triggerScan s).start = s.start := by unfold triggerScan; split <;> rfl
@[simp] theorem triggerScan_setup (s : State) : (triggerScan s).setup = s.setup := by unfold triggerScan; split <;> rfl
@[simp] theorem triggerScan_banks (s : State) : (triggerScan s).banks = s.banks := by unfold triggerScan; split <;> rfl
@[simp] theorem triggerScan_monitor (s : State) : (triggerScan s).monitor = s.monitor := by unfold triggerScan; split <;> rfl
@[simp] theorem triggerScan_admission (s : State) : (triggerScan s).admission = s.admission := by unfold triggerScan; split <;> rfl
@[simp] theorem triggerScan_lanes (s : State) : (triggerScan s).lanes = s.lanes := by unfold triggerScan; split <;> rfl
@[simp] theorem triggerScan_closing (s : State) : (triggerScan s).closing = s.closing := by unfold triggerScan; split <;> rfl
@[simp] theorem triggerScan_frame (s : State) : (triggerScan s).frame = s.frame := by unfold triggerScan; split <;> rfl
@[simp] theorem triggerScan_links (s : State) : (triggerScan s).links = s.links := by unfold triggerScan; split <;> rfl
@[simp] theorem triggerScan_rails (s : State) : (triggerScan s).rails = s.rails := by unfold triggerScan; split <;> rfl
@[simp] theorem triggerScan_tally (s : State) : (triggerScan s).tally = s.tally := by unfold triggerScan; split <;> rfl
@[simp] theorem triggerScan_resets (s : State) : (triggerScan s).resets = s.resets := by unfold triggerScan; split <;> rfl
@[simp] theorem handRequest_pending (r : BoardRequest) (s : State) : (handRequest r s).pending = s.pending := rfl
@[simp] theorem handRequest_dram (r : BoardRequest) (s : State) : (handRequest r s).dram = s.dram := rfl
@[simp] theorem handRequest_pins (r : BoardRequest) (s : State) : (handRequest r s).pins = s.pins := rfl
@[simp] theorem handRequest_port (r : BoardRequest) (s : State) : (handRequest r s).port = s.port := rfl
@[simp] theorem handRequest_notice (r : BoardRequest) (s : State) : (handRequest r s).notice = s.notice := rfl
@[simp] theorem handRequest_start (r : BoardRequest) (s : State) : (handRequest r s).start = s.start := rfl
@[simp] theorem handRequest_setup (r : BoardRequest) (s : State) : (handRequest r s).setup = s.setup := rfl
@[simp] theorem handRequest_banks (r : BoardRequest) (s : State) : (handRequest r s).banks = s.banks := rfl
@[simp] theorem handRequest_monitor (r : BoardRequest) (s : State) : (handRequest r s).monitor = s.monitor := rfl
@[simp] theorem handRequest_admission (r : BoardRequest) (s : State) : (handRequest r s).admission = s.admission := rfl
@[simp] theorem handRequest_lanes (r : BoardRequest) (s : State) : (handRequest r s).lanes = s.lanes := rfl
@[simp] theorem handRequest_closing (r : BoardRequest) (s : State) : (handRequest r s).closing = s.closing := rfl
@[simp] theorem handRequest_frame (r : BoardRequest) (s : State) : (handRequest r s).frame = s.frame := rfl
@[simp] theorem handRequest_links (r : BoardRequest) (s : State) : (handRequest r s).links = s.links := rfl
@[simp] theorem handRequest_rails (r : BoardRequest) (s : State) : (handRequest r s).rails = s.rails := rfl
@[simp] theorem handRequest_tally (r : BoardRequest) (s : State) : (handRequest r s).tally = s.tally := rfl
@[simp] theorem handRequest_resets (r : BoardRequest) (s : State) : (handRequest r s).resets = s.resets := rfl
@[simp] theorem handHeader_pending (w : HeaderWrite) (s : State) : (handHeader w s).pending = s.pending := by unfold handHeader; split <;> rfl
@[simp] theorem handHeader_dram (w : HeaderWrite) (s : State) : (handHeader w s).dram = s.dram := by unfold handHeader; split <;> rfl
@[simp] theorem handHeader_pins (w : HeaderWrite) (s : State) : (handHeader w s).pins = s.pins := by unfold handHeader; split <;> rfl
@[simp] theorem handHeader_port (w : HeaderWrite) (s : State) : (handHeader w s).port = s.port := by unfold handHeader; split <;> rfl
@[simp] theorem handHeader_notice (w : HeaderWrite) (s : State) : (handHeader w s).notice = s.notice := by unfold handHeader; split <;> rfl
@[simp] theorem handHeader_start (w : HeaderWrite) (s : State) : (handHeader w s).start = s.start := by unfold handHeader; split <;> rfl
@[simp] theorem handHeader_setup (w : HeaderWrite) (s : State) : (handHeader w s).setup = s.setup := by unfold handHeader; split <;> rfl
@[simp] theorem handHeader_banks (w : HeaderWrite) (s : State) : (handHeader w s).banks = s.banks := by unfold handHeader; split <;> rfl
@[simp] theorem handHeader_monitor (w : HeaderWrite) (s : State) : (handHeader w s).monitor = s.monitor := by unfold handHeader; split <;> rfl
@[simp] theorem handHeader_admission (w : HeaderWrite) (s : State) : (handHeader w s).admission = s.admission := by unfold handHeader; split <;> rfl
@[simp] theorem handHeader_lanes (w : HeaderWrite) (s : State) : (handHeader w s).lanes = s.lanes := by unfold handHeader; split <;> rfl
@[simp] theorem handHeader_closing (w : HeaderWrite) (s : State) : (handHeader w s).closing = s.closing := by unfold handHeader; split <;> rfl
@[simp] theorem handHeader_frame (w : HeaderWrite) (s : State) : (handHeader w s).frame = s.frame := by unfold handHeader; split <;> rfl
@[simp] theorem handHeader_links (w : HeaderWrite) (s : State) : (handHeader w s).links = s.links := by unfold handHeader; split <;> rfl
@[simp] theorem handHeader_rails (w : HeaderWrite) (s : State) : (handHeader w s).rails = s.rails := by unfold handHeader; split <;> rfl
@[simp] theorem handHeader_tally (w : HeaderWrite) (s : State) : (handHeader w s).tally = s.tally := by unfold handHeader; split <;> rfl
@[simp] theorem handHeader_resets (w : HeaderWrite) (s : State) : (handHeader w s).resets = s.resets := by unfold handHeader; split <;> rfl
@[simp] theorem setSlot_pending (i : Fin 64) (r : Slot) (s : State) : (setSlot i r s).pending = s.pending := rfl
@[simp] theorem setSlot_dram (i : Fin 64) (r : Slot) (s : State) : (setSlot i r s).dram = s.dram := rfl
@[simp] theorem setSlot_pins (i : Fin 64) (r : Slot) (s : State) : (setSlot i r s).pins = s.pins := rfl
@[simp] theorem setSlot_port (i : Fin 64) (r : Slot) (s : State) : (setSlot i r s).port = s.port := rfl
@[simp] theorem setSlot_notice (i : Fin 64) (r : Slot) (s : State) : (setSlot i r s).notice = s.notice := rfl
@[simp] theorem setSlot_start (i : Fin 64) (r : Slot) (s : State) : (setSlot i r s).start = s.start := rfl
@[simp] theorem setSlot_setup (i : Fin 64) (r : Slot) (s : State) : (setSlot i r s).setup = s.setup := rfl
@[simp] theorem setSlot_banks (i : Fin 64) (r : Slot) (s : State) : (setSlot i r s).banks = s.banks := rfl
@[simp] theorem setSlot_monitor (i : Fin 64) (r : Slot) (s : State) : (setSlot i r s).monitor = s.monitor := rfl
@[simp] theorem setSlot_admission (i : Fin 64) (r : Slot) (s : State) : (setSlot i r s).admission = s.admission := rfl
@[simp] theorem setSlot_lanes (i : Fin 64) (r : Slot) (s : State) : (setSlot i r s).lanes = s.lanes := rfl
@[simp] theorem setSlot_closing (i : Fin 64) (r : Slot) (s : State) : (setSlot i r s).closing = s.closing := rfl
@[simp] theorem setSlot_frame (i : Fin 64) (r : Slot) (s : State) : (setSlot i r s).frame = s.frame := rfl
@[simp] theorem setSlot_links (i : Fin 64) (r : Slot) (s : State) : (setSlot i r s).links = s.links := rfl
@[simp] theorem setSlot_rails (i : Fin 64) (r : Slot) (s : State) : (setSlot i r s).rails = s.rails := rfl
@[simp] theorem setSlot_tally (i : Fin 64) (r : Slot) (s : State) : (setSlot i r s).tally = s.tally := rfl
@[simp] theorem setSlot_resets (i : Fin 64) (r : Slot) (s : State) : (setSlot i r s).resets = s.resets := rfl
@[simp] theorem setLane_pending (n : Fin 32) (l : Lane) (s : State) : (setLane n l s).pending = s.pending := rfl
@[simp] theorem setLane_dram (n : Fin 32) (l : Lane) (s : State) : (setLane n l s).dram = s.dram := rfl
@[simp] theorem setLane_pins (n : Fin 32) (l : Lane) (s : State) : (setLane n l s).pins = s.pins := rfl
@[simp] theorem setLane_port (n : Fin 32) (l : Lane) (s : State) : (setLane n l s).port = s.port := rfl
@[simp] theorem setLane_notice (n : Fin 32) (l : Lane) (s : State) : (setLane n l s).notice = s.notice := rfl
@[simp] theorem setLane_start (n : Fin 32) (l : Lane) (s : State) : (setLane n l s).start = s.start := rfl
@[simp] theorem setLane_setup (n : Fin 32) (l : Lane) (s : State) : (setLane n l s).setup = s.setup := rfl
@[simp] theorem setLane_banks (n : Fin 32) (l : Lane) (s : State) : (setLane n l s).banks = s.banks := rfl
@[simp] theorem setLane_monitor (n : Fin 32) (l : Lane) (s : State) : (setLane n l s).monitor = s.monitor := rfl
@[simp] theorem setLane_board (n : Fin 32) (l : Lane) (s : State) : (setLane n l s).board = s.board := rfl
@[simp] theorem setLane_admission (n : Fin 32) (l : Lane) (s : State) : (setLane n l s).admission = s.admission := rfl
@[simp] theorem setLane_closing (n : Fin 32) (l : Lane) (s : State) : (setLane n l s).closing = s.closing := rfl
@[simp] theorem setLane_frame (n : Fin 32) (l : Lane) (s : State) : (setLane n l s).frame = s.frame := rfl
@[simp] theorem setLane_links (n : Fin 32) (l : Lane) (s : State) : (setLane n l s).links = s.links := rfl
@[simp] theorem setLane_rails (n : Fin 32) (l : Lane) (s : State) : (setLane n l s).rails = s.rails := rfl
@[simp] theorem setLane_tally (n : Fin 32) (l : Lane) (s : State) : (setLane n l s).tally = s.tally := rfl
@[simp] theorem setLane_resets (n : Fin 32) (l : Lane) (s : State) : (setLane n l s).resets = s.resets := rfl
@[simp] theorem setLink_pending (k : Fin 4) (l : Link) (s : State) : (setLink k l s).pending = s.pending := rfl
@[simp] theorem setLink_dram (k : Fin 4) (l : Link) (s : State) : (setLink k l s).dram = s.dram := rfl
@[simp] theorem setLink_pins (k : Fin 4) (l : Link) (s : State) : (setLink k l s).pins = s.pins := rfl
@[simp] theorem setLink_port (k : Fin 4) (l : Link) (s : State) : (setLink k l s).port = s.port := rfl
@[simp] theorem setLink_notice (k : Fin 4) (l : Link) (s : State) : (setLink k l s).notice = s.notice := rfl
@[simp] theorem setLink_start (k : Fin 4) (l : Link) (s : State) : (setLink k l s).start = s.start := rfl
@[simp] theorem setLink_setup (k : Fin 4) (l : Link) (s : State) : (setLink k l s).setup = s.setup := rfl
@[simp] theorem setLink_banks (k : Fin 4) (l : Link) (s : State) : (setLink k l s).banks = s.banks := rfl
@[simp] theorem setLink_monitor (k : Fin 4) (l : Link) (s : State) : (setLink k l s).monitor = s.monitor := rfl
@[simp] theorem setLink_board (k : Fin 4) (l : Link) (s : State) : (setLink k l s).board = s.board := rfl
@[simp] theorem setLink_admission (k : Fin 4) (l : Link) (s : State) : (setLink k l s).admission = s.admission := rfl
@[simp] theorem setLink_lanes (k : Fin 4) (l : Link) (s : State) : (setLink k l s).lanes = s.lanes := rfl
@[simp] theorem setLink_closing (k : Fin 4) (l : Link) (s : State) : (setLink k l s).closing = s.closing := rfl
@[simp] theorem setLink_frame (k : Fin 4) (l : Link) (s : State) : (setLink k l s).frame = s.frame := rfl
@[simp] theorem setLink_rails (k : Fin 4) (l : Link) (s : State) : (setLink k l s).rails = s.rails := rfl
@[simp] theorem setLink_tally (k : Fin 4) (l : Link) (s : State) : (setLink k l s).tally = s.tally := rfl
@[simp] theorem setLink_resets (k : Fin 4) (l : Link) (s : State) : (setLink k l s).resets = s.resets := rfl
@[simp] theorem tallyEvent_pending (e : CountEvent) (n : Nat) (s : State) : (tallyEvent e n s).pending = s.pending := rfl
@[simp] theorem tallyEvent_dram (e : CountEvent) (n : Nat) (s : State) : (tallyEvent e n s).dram = s.dram := rfl
@[simp] theorem tallyEvent_pins (e : CountEvent) (n : Nat) (s : State) : (tallyEvent e n s).pins = s.pins := rfl
@[simp] theorem tallyEvent_port (e : CountEvent) (n : Nat) (s : State) : (tallyEvent e n s).port = s.port := rfl
@[simp] theorem tallyEvent_notice (e : CountEvent) (n : Nat) (s : State) : (tallyEvent e n s).notice = s.notice := rfl
@[simp] theorem tallyEvent_start (e : CountEvent) (n : Nat) (s : State) : (tallyEvent e n s).start = s.start := rfl
@[simp] theorem tallyEvent_setup (e : CountEvent) (n : Nat) (s : State) : (tallyEvent e n s).setup = s.setup := rfl
@[simp] theorem tallyEvent_banks (e : CountEvent) (n : Nat) (s : State) : (tallyEvent e n s).banks = s.banks := rfl
@[simp] theorem tallyEvent_monitor (e : CountEvent) (n : Nat) (s : State) : (tallyEvent e n s).monitor = s.monitor := rfl
@[simp] theorem tallyEvent_board (e : CountEvent) (n : Nat) (s : State) : (tallyEvent e n s).board = s.board := rfl
@[simp] theorem tallyEvent_admission (e : CountEvent) (n : Nat) (s : State) : (tallyEvent e n s).admission = s.admission := rfl
@[simp] theorem tallyEvent_lanes (e : CountEvent) (n : Nat) (s : State) : (tallyEvent e n s).lanes = s.lanes := rfl
@[simp] theorem tallyEvent_closing (e : CountEvent) (n : Nat) (s : State) : (tallyEvent e n s).closing = s.closing := rfl
@[simp] theorem tallyEvent_frame (e : CountEvent) (n : Nat) (s : State) : (tallyEvent e n s).frame = s.frame := rfl
@[simp] theorem tallyEvent_links (e : CountEvent) (n : Nat) (s : State) : (tallyEvent e n s).links = s.links := rfl
@[simp] theorem tallyEvent_rails (e : CountEvent) (n : Nat) (s : State) : (tallyEvent e n s).rails = s.rails := rfl
@[simp] theorem tallyEvent_resets (e : CountEvent) (n : Nat) (s : State) : (tallyEvent e n s).resets = s.resets := rfl
@[simp] theorem handFinish_pending (f : Finish) (s : State) : (handFinish f s).pending = s.pending := rfl
@[simp] theorem handFinish_dram (f : Finish) (s : State) : (handFinish f s).dram = s.dram := rfl
@[simp] theorem handFinish_pins (f : Finish) (s : State) : (handFinish f s).pins = s.pins := rfl
@[simp] theorem handFinish_port (f : Finish) (s : State) : (handFinish f s).port = s.port := rfl
@[simp] theorem handFinish_notice (f : Finish) (s : State) : (handFinish f s).notice = s.notice := rfl
@[simp] theorem handFinish_start (f : Finish) (s : State) : (handFinish f s).start = s.start := rfl
@[simp] theorem handFinish_setup (f : Finish) (s : State) : (handFinish f s).setup = s.setup := rfl
@[simp] theorem handFinish_banks (f : Finish) (s : State) : (handFinish f s).banks = s.banks := rfl
@[simp] theorem handFinish_monitor (f : Finish) (s : State) : (handFinish f s).monitor = s.monitor := rfl
@[simp] theorem handFinish_admission (f : Finish) (s : State) : (handFinish f s).admission = s.admission := rfl
@[simp] theorem handFinish_lanes (f : Finish) (s : State) : (handFinish f s).lanes = s.lanes := rfl
@[simp] theorem handFinish_closing (f : Finish) (s : State) : (handFinish f s).closing = s.closing := rfl
@[simp] theorem handFinish_frame (f : Finish) (s : State) : (handFinish f s).frame = s.frame := rfl
@[simp] theorem handFinish_links (f : Finish) (s : State) : (handFinish f s).links = s.links := rfl
@[simp] theorem handFinish_rails (f : Finish) (s : State) : (handFinish f s).rails = s.rails := rfl
@[simp] theorem handFinish_tally (f : Finish) (s : State) : (handFinish f s).tally = s.tally := rfl
@[simp] theorem handFinish_resets (f : Finish) (s : State) : (handFinish f s).resets = s.resets := rfl
@[simp] theorem setPartState_pending (p : PartState) (s : State) : (setPartState p s).pending = s.pending := by simp [setPartState]
@[simp] theorem setPartState_dram (p : PartState) (s : State) : (setPartState p s).dram = s.dram := by simp [setPartState]
@[simp] theorem setPartState_pins (p : PartState) (s : State) : (setPartState p s).pins = s.pins := by simp [setPartState]
@[simp] theorem setPartState_notice (p : PartState) (s : State) : (setPartState p s).notice = s.notice := by simp [setPartState]
@[simp] theorem setPartState_start (p : PartState) (s : State) : (setPartState p s).start = s.start := by simp [setPartState]
@[simp] theorem setPartState_setup (p : PartState) (s : State) : (setPartState p s).setup = s.setup := by simp [setPartState]
@[simp] theorem setPartState_banks (p : PartState) (s : State) : (setPartState p s).banks = s.banks := by simp [setPartState]
@[simp] theorem setPartState_monitor (p : PartState) (s : State) : (setPartState p s).monitor = s.monitor := by simp [setPartState]
@[simp] theorem setPartState_admission (p : PartState) (s : State) : (setPartState p s).admission = s.admission := by simp [setPartState]
@[simp] theorem setPartState_lanes (p : PartState) (s : State) : (setPartState p s).lanes = s.lanes := by simp [setPartState]
@[simp] theorem setPartState_closing (p : PartState) (s : State) : (setPartState p s).closing = s.closing := by simp [setPartState]
@[simp] theorem setPartState_frame (p : PartState) (s : State) : (setPartState p s).frame = s.frame := by simp [setPartState]
@[simp] theorem setPartState_links (p : PartState) (s : State) : (setPartState p s).links = s.links := by simp [setPartState]
@[simp] theorem setPartState_rails (p : PartState) (s : State) : (setPartState p s).rails = s.rails := by simp [setPartState]
@[simp] theorem setPartState_tally (p : PartState) (s : State) : (setPartState p s).tally = s.tally := by simp [setPartState]
@[simp] theorem setPartState_resets (p : PartState) (s : State) : (setPartState p s).resets = s.resets := by simp [setPartState]
@[simp] theorem setBank_pending (id : BankId) (bank : Bank) (s : State) : (setBank id bank s).pending = s.pending := by simp [setBank]
@[simp] theorem setBank_dram (id : BankId) (bank : Bank) (s : State) : (setBank id bank s).dram = s.dram := by simp [setBank]
@[simp] theorem setBank_pins (id : BankId) (bank : Bank) (s : State) : (setBank id bank s).pins = s.pins := by simp [setBank]
@[simp] theorem setBank_port (id : BankId) (bank : Bank) (s : State) : (setBank id bank s).port = s.port := by simp [setBank]
@[simp] theorem setBank_notice (id : BankId) (bank : Bank) (s : State) : (setBank id bank s).notice = s.notice := by simp [setBank]
@[simp] theorem setBank_start (id : BankId) (bank : Bank) (s : State) : (setBank id bank s).start = s.start := by simp [setBank]
@[simp] theorem setBank_setup (id : BankId) (bank : Bank) (s : State) : (setBank id bank s).setup = s.setup := by simp [setBank]
@[simp] theorem setBank_monitor (id : BankId) (bank : Bank) (s : State) : (setBank id bank s).monitor = s.monitor := by simp [setBank]
@[simp] theorem setBank_admission (id : BankId) (bank : Bank) (s : State) : (setBank id bank s).admission = s.admission := by simp [setBank]
@[simp] theorem setBank_lanes (id : BankId) (bank : Bank) (s : State) : (setBank id bank s).lanes = s.lanes := by simp [setBank]
@[simp] theorem setBank_closing (id : BankId) (bank : Bank) (s : State) : (setBank id bank s).closing = s.closing := by simp [setBank]
@[simp] theorem setBank_frame (id : BankId) (bank : Bank) (s : State) : (setBank id bank s).frame = s.frame := by simp [setBank]
@[simp] theorem setBank_links (id : BankId) (bank : Bank) (s : State) : (setBank id bank s).links = s.links := by simp [setBank]
@[simp] theorem setBank_rails (id : BankId) (bank : Bank) (s : State) : (setBank id bank s).rails = s.rails := by simp [setBank]
@[simp] theorem setBank_tally (id : BankId) (bank : Bank) (s : State) : (setBank id bank s).tally = s.tally := by simp [setBank]
@[simp] theorem setBank_resets (id : BankId) (bank : Bank) (s : State) : (setBank id bank s).resets = s.resets := by simp [setBank]
@[simp] theorem startLoad_pending (id : BankId) (band : Nat) (s : State) : (startLoad id band s).pending = s.pending := by simp [startLoad]
@[simp] theorem startLoad_dram (id : BankId) (band : Nat) (s : State) : (startLoad id band s).dram = s.dram := by simp [startLoad]
@[simp] theorem startLoad_pins (id : BankId) (band : Nat) (s : State) : (startLoad id band s).pins = s.pins := by simp [startLoad]
@[simp] theorem startLoad_port (id : BankId) (band : Nat) (s : State) : (startLoad id band s).port = s.port := by simp [startLoad]
@[simp] theorem startLoad_notice (id : BankId) (band : Nat) (s : State) : (startLoad id band s).notice = s.notice := by simp [startLoad]
@[simp] theorem startLoad_start (id : BankId) (band : Nat) (s : State) : (startLoad id band s).start = s.start := by simp [startLoad]
@[simp] theorem startLoad_setup (id : BankId) (band : Nat) (s : State) : (startLoad id band s).setup = s.setup := by simp [startLoad]
@[simp] theorem startLoad_monitor (id : BankId) (band : Nat) (s : State) : (startLoad id band s).monitor = s.monitor := by simp [startLoad]
@[simp] theorem startLoad_admission (id : BankId) (band : Nat) (s : State) : (startLoad id band s).admission = s.admission := by simp [startLoad]
@[simp] theorem startLoad_lanes (id : BankId) (band : Nat) (s : State) : (startLoad id band s).lanes = s.lanes := by simp [startLoad]
@[simp] theorem startLoad_closing (id : BankId) (band : Nat) (s : State) : (startLoad id band s).closing = s.closing := by simp [startLoad]
@[simp] theorem startLoad_frame (id : BankId) (band : Nat) (s : State) : (startLoad id band s).frame = s.frame := by simp [startLoad]
@[simp] theorem startLoad_links (id : BankId) (band : Nat) (s : State) : (startLoad id band s).links = s.links := by simp [startLoad]
@[simp] theorem startLoad_rails (id : BankId) (band : Nat) (s : State) : (startLoad id band s).rails = s.rails := by simp [startLoad]
@[simp] theorem startLoad_tally (id : BankId) (band : Nat) (s : State) : (startLoad id band s).tally = s.tally := by simp [startLoad]
@[simp] theorem startLoad_resets (id : BankId) (band : Nat) (s : State) : (startLoad id band s).resets = s.resets := by simp [startLoad]
@[simp] theorem requestLoad_pending (band : Nat) (s : State) : (requestLoad band s).pending = s.pending := by simp only [requestLoad]; split <;> [split <;> simp; simp; simp]
@[simp] theorem requestLoad_dram (band : Nat) (s : State) : (requestLoad band s).dram = s.dram := by simp only [requestLoad]; split <;> [split <;> simp; simp; simp]
@[simp] theorem requestLoad_pins (band : Nat) (s : State) : (requestLoad band s).pins = s.pins := by simp only [requestLoad]; split <;> [split <;> simp; simp; simp]
@[simp] theorem requestLoad_port (band : Nat) (s : State) : (requestLoad band s).port = s.port := by simp only [requestLoad]; split <;> [split <;> simp; simp; simp]
@[simp] theorem requestLoad_notice (band : Nat) (s : State) : (requestLoad band s).notice = s.notice := by simp only [requestLoad]; split <;> [split <;> simp; simp; simp]
@[simp] theorem requestLoad_start (band : Nat) (s : State) : (requestLoad band s).start = s.start := by simp only [requestLoad]; split <;> [split <;> simp; simp; simp]
@[simp] theorem requestLoad_setup (band : Nat) (s : State) : (requestLoad band s).setup = s.setup := by simp only [requestLoad]; split <;> [split <;> simp; simp; simp]
@[simp] theorem requestLoad_monitor (band : Nat) (s : State) : (requestLoad band s).monitor = s.monitor := by simp only [requestLoad]; split <;> [split <;> simp; simp; simp]
@[simp] theorem requestLoad_admission (band : Nat) (s : State) : (requestLoad band s).admission = s.admission := by simp only [requestLoad]; split <;> [split <;> simp; simp; simp]
@[simp] theorem requestLoad_lanes (band : Nat) (s : State) : (requestLoad band s).lanes = s.lanes := by simp only [requestLoad]; split <;> [split <;> simp; simp; simp]
@[simp] theorem requestLoad_closing (band : Nat) (s : State) : (requestLoad band s).closing = s.closing := by simp only [requestLoad]; split <;> [split <;> simp; simp; simp]
@[simp] theorem requestLoad_frame (band : Nat) (s : State) : (requestLoad band s).frame = s.frame := by simp only [requestLoad]; split <;> [split <;> simp; simp; simp]
@[simp] theorem requestLoad_links (band : Nat) (s : State) : (requestLoad band s).links = s.links := by simp only [requestLoad]; split <;> [split <;> simp; simp; simp]
@[simp] theorem requestLoad_rails (band : Nat) (s : State) : (requestLoad band s).rails = s.rails := by simp only [requestLoad]; split <;> [split <;> simp; simp; simp]
@[simp] theorem requestLoad_tally (band : Nat) (s : State) : (requestLoad band s).tally = s.tally := by simp only [requestLoad]; split <;> [split <;> simp; simp; simp]
@[simp] theorem requestLoad_resets (band : Nat) (s : State) : (requestLoad band s).resets = s.resets := by simp only [requestLoad]; split <;> [split <;> simp; simp; simp]
@[simp] theorem bankClaimed_pending (id : BankId) (s : State) : (bankClaimed id s).pending = s.pending := rfl
@[simp] theorem bankClaimed_dram (id : BankId) (s : State) : (bankClaimed id s).dram = s.dram := rfl
@[simp] theorem bankClaimed_pins (id : BankId) (s : State) : (bankClaimed id s).pins = s.pins := rfl
@[simp] theorem bankClaimed_port (id : BankId) (s : State) : (bankClaimed id s).port = s.port := rfl
@[simp] theorem bankClaimed_notice (id : BankId) (s : State) : (bankClaimed id s).notice = s.notice := rfl
@[simp] theorem bankClaimed_start (id : BankId) (s : State) : (bankClaimed id s).start = s.start := rfl
@[simp] theorem bankClaimed_setup (id : BankId) (s : State) : (bankClaimed id s).setup = s.setup := rfl
@[simp] theorem bankClaimed_monitor (id : BankId) (s : State) : (bankClaimed id s).monitor = s.monitor := rfl
@[simp] theorem bankClaimed_board (id : BankId) (s : State) : (bankClaimed id s).board = s.board := rfl
@[simp] theorem bankClaimed_admission (id : BankId) (s : State) : (bankClaimed id s).admission = s.admission := rfl
@[simp] theorem bankClaimed_lanes (id : BankId) (s : State) : (bankClaimed id s).lanes = s.lanes := rfl
@[simp] theorem bankClaimed_closing (id : BankId) (s : State) : (bankClaimed id s).closing = s.closing := rfl
@[simp] theorem bankClaimed_frame (id : BankId) (s : State) : (bankClaimed id s).frame = s.frame := rfl
@[simp] theorem bankClaimed_links (id : BankId) (s : State) : (bankClaimed id s).links = s.links := rfl
@[simp] theorem bankClaimed_rails (id : BankId) (s : State) : (bankClaimed id s).rails = s.rails := rfl
@[simp] theorem bankClaimed_tally (id : BankId) (s : State) : (bankClaimed id s).tally = s.tally := rfl
@[simp] theorem bankClaimed_resets (id : BankId) (s : State) : (bankClaimed id s).resets = s.resets := rfl
@[simp] theorem startDeferred_pending (id : BankId) (s : State) : (startDeferred id s).pending = s.pending := by simp only [startDeferred]; split <;> [split <;> simp; rfl]
@[simp] theorem startDeferred_dram (id : BankId) (s : State) : (startDeferred id s).dram = s.dram := by simp only [startDeferred]; split <;> [split <;> simp; rfl]
@[simp] theorem startDeferred_pins (id : BankId) (s : State) : (startDeferred id s).pins = s.pins := by simp only [startDeferred]; split <;> [split <;> simp; rfl]
@[simp] theorem startDeferred_port (id : BankId) (s : State) : (startDeferred id s).port = s.port := by simp only [startDeferred]; split <;> [split <;> simp; rfl]
@[simp] theorem startDeferred_notice (id : BankId) (s : State) : (startDeferred id s).notice = s.notice := by simp only [startDeferred]; split <;> [split <;> simp; rfl]
@[simp] theorem startDeferred_start (id : BankId) (s : State) : (startDeferred id s).start = s.start := by simp only [startDeferred]; split <;> [split <;> simp; rfl]
@[simp] theorem startDeferred_setup (id : BankId) (s : State) : (startDeferred id s).setup = s.setup := by simp only [startDeferred]; split <;> [split <;> simp; rfl]
@[simp] theorem startDeferred_monitor (id : BankId) (s : State) : (startDeferred id s).monitor = s.monitor := by simp only [startDeferred]; split <;> [split <;> simp; rfl]
@[simp] theorem startDeferred_admission (id : BankId) (s : State) : (startDeferred id s).admission = s.admission := by simp only [startDeferred]; split <;> [split <;> simp; rfl]
@[simp] theorem startDeferred_lanes (id : BankId) (s : State) : (startDeferred id s).lanes = s.lanes := by simp only [startDeferred]; split <;> [split <;> simp; rfl]
@[simp] theorem startDeferred_closing (id : BankId) (s : State) : (startDeferred id s).closing = s.closing := by simp only [startDeferred]; split <;> [split <;> simp; rfl]
@[simp] theorem startDeferred_frame (id : BankId) (s : State) : (startDeferred id s).frame = s.frame := by simp only [startDeferred]; split <;> [split <;> simp; rfl]
@[simp] theorem startDeferred_links (id : BankId) (s : State) : (startDeferred id s).links = s.links := by simp only [startDeferred]; split <;> [split <;> simp; rfl]
@[simp] theorem startDeferred_rails (id : BankId) (s : State) : (startDeferred id s).rails = s.rails := by simp only [startDeferred]; split <;> [split <;> simp; rfl]
@[simp] theorem startDeferred_tally (id : BankId) (s : State) : (startDeferred id s).tally = s.tally := by simp only [startDeferred]; split <;> [split <;> simp; rfl]
@[simp] theorem startDeferred_resets (id : BankId) (s : State) : (startDeferred id s).resets = s.resets := by simp only [startDeferred]; split <;> [split <;> simp; rfl]
@[simp] theorem bankReleased_pending (id : BankId) (s : State) : (bankReleased id s).pending = s.pending := by simp [bankReleased]
@[simp] theorem bankReleased_dram (id : BankId) (s : State) : (bankReleased id s).dram = s.dram := by simp [bankReleased]
@[simp] theorem bankReleased_pins (id : BankId) (s : State) : (bankReleased id s).pins = s.pins := by simp [bankReleased]
@[simp] theorem bankReleased_port (id : BankId) (s : State) : (bankReleased id s).port = s.port := by simp [bankReleased]
@[simp] theorem bankReleased_notice (id : BankId) (s : State) : (bankReleased id s).notice = s.notice := by simp [bankReleased]
@[simp] theorem bankReleased_start (id : BankId) (s : State) : (bankReleased id s).start = s.start := by simp [bankReleased]
@[simp] theorem bankReleased_setup (id : BankId) (s : State) : (bankReleased id s).setup = s.setup := by simp [bankReleased]
@[simp] theorem bankReleased_monitor (id : BankId) (s : State) : (bankReleased id s).monitor = s.monitor := by simp [bankReleased]
@[simp] theorem bankReleased_admission (id : BankId) (s : State) : (bankReleased id s).admission = s.admission := by simp [bankReleased]
@[simp] theorem bankReleased_lanes (id : BankId) (s : State) : (bankReleased id s).lanes = s.lanes := by simp [bankReleased]
@[simp] theorem bankReleased_closing (id : BankId) (s : State) : (bankReleased id s).closing = s.closing := by simp [bankReleased]
@[simp] theorem bankReleased_frame (id : BankId) (s : State) : (bankReleased id s).frame = s.frame := by simp [bankReleased]
@[simp] theorem bankReleased_links (id : BankId) (s : State) : (bankReleased id s).links = s.links := by simp [bankReleased]
@[simp] theorem bankReleased_rails (id : BankId) (s : State) : (bankReleased id s).rails = s.rails := by simp [bankReleased]
@[simp] theorem bankReleased_tally (id : BankId) (s : State) : (bankReleased id s).tally = s.tally := by simp [bankReleased]
@[simp] theorem bankReleased_resets (id : BankId) (s : State) : (bankReleased id s).resets = s.resets := by simp [bankReleased]
@[simp] theorem loadTick_pending (s : State) : (loadTick s).pending = s.pending := by simp only [loadTick]; split <;> [split <;> rfl; rfl]
@[simp] theorem loadTick_dram (s : State) : (loadTick s).dram = s.dram := by simp only [loadTick]; split <;> [split <;> rfl; rfl]
@[simp] theorem loadTick_pins (s : State) : (loadTick s).pins = s.pins := by simp only [loadTick]; split <;> [split <;> rfl; rfl]
@[simp] theorem loadTick_port (s : State) : (loadTick s).port = s.port := by simp only [loadTick]; split <;> [split <;> rfl; rfl]
@[simp] theorem loadTick_notice (s : State) : (loadTick s).notice = s.notice := by simp only [loadTick]; split <;> [split <;> rfl; rfl]
@[simp] theorem loadTick_start (s : State) : (loadTick s).start = s.start := by simp only [loadTick]; split <;> [split <;> rfl; rfl]
@[simp] theorem loadTick_setup (s : State) : (loadTick s).setup = s.setup := by simp only [loadTick]; split <;> [split <;> rfl; rfl]
@[simp] theorem loadTick_monitor (s : State) : (loadTick s).monitor = s.monitor := by simp only [loadTick]; split <;> [split <;> rfl; rfl]
@[simp] theorem loadTick_board (s : State) : (loadTick s).board = s.board := by simp only [loadTick]; split <;> [split <;> rfl; rfl]
@[simp] theorem loadTick_admission (s : State) : (loadTick s).admission = s.admission := by simp only [loadTick]; split <;> [split <;> rfl; rfl]
@[simp] theorem loadTick_lanes (s : State) : (loadTick s).lanes = s.lanes := by simp only [loadTick]; split <;> [split <;> rfl; rfl]
@[simp] theorem loadTick_closing (s : State) : (loadTick s).closing = s.closing := by simp only [loadTick]; split <;> [split <;> rfl; rfl]
@[simp] theorem loadTick_frame (s : State) : (loadTick s).frame = s.frame := by simp only [loadTick]; split <;> [split <;> rfl; rfl]
@[simp] theorem loadTick_links (s : State) : (loadTick s).links = s.links := by simp only [loadTick]; split <;> [split <;> rfl; rfl]
@[simp] theorem loadTick_rails (s : State) : (loadTick s).rails = s.rails := by simp only [loadTick]; split <;> [split <;> rfl; rfl]
@[simp] theorem loadTick_tally (s : State) : (loadTick s).tally = s.tally := by simp only [loadTick]; split <;> [split <;> rfl; rfl]
@[simp] theorem loadTick_resets (s : State) : (loadTick s).resets = s.resets := by simp only [loadTick]; split <;> [split <;> rfl; rfl]
@[simp] theorem finishLoad_pending (id : BankId) (band : Nat) (e : List Waveform) (s : State) : (finishLoad id band e s).pending = s.pending := by simp [finishLoad]
@[simp] theorem finishLoad_dram (id : BankId) (band : Nat) (e : List Waveform) (s : State) : (finishLoad id band e s).dram = s.dram := by simp [finishLoad]
@[simp] theorem finishLoad_pins (id : BankId) (band : Nat) (e : List Waveform) (s : State) : (finishLoad id band e s).pins = s.pins := by simp [finishLoad]
@[simp] theorem finishLoad_port (id : BankId) (band : Nat) (e : List Waveform) (s : State) : (finishLoad id band e s).port = s.port := by simp [finishLoad]
@[simp] theorem finishLoad_notice (id : BankId) (band : Nat) (e : List Waveform) (s : State) : (finishLoad id band e s).notice = s.notice := by simp [finishLoad]
@[simp] theorem finishLoad_start (id : BankId) (band : Nat) (e : List Waveform) (s : State) : (finishLoad id band e s).start = s.start := by simp [finishLoad]
@[simp] theorem finishLoad_setup (id : BankId) (band : Nat) (e : List Waveform) (s : State) : (finishLoad id band e s).setup = s.setup := by simp [finishLoad]
@[simp] theorem finishLoad_monitor (id : BankId) (band : Nat) (e : List Waveform) (s : State) : (finishLoad id band e s).monitor = s.monitor := by simp [finishLoad]
@[simp] theorem finishLoad_lanes (id : BankId) (band : Nat) (e : List Waveform) (s : State) : (finishLoad id band e s).lanes = s.lanes := by simp [finishLoad]
@[simp] theorem finishLoad_closing (id : BankId) (band : Nat) (e : List Waveform) (s : State) : (finishLoad id band e s).closing = s.closing := by simp [finishLoad]
@[simp] theorem finishLoad_frame (id : BankId) (band : Nat) (e : List Waveform) (s : State) : (finishLoad id band e s).frame = s.frame := by simp [finishLoad]
@[simp] theorem finishLoad_links (id : BankId) (band : Nat) (e : List Waveform) (s : State) : (finishLoad id band e s).links = s.links := by simp [finishLoad]
@[simp] theorem finishLoad_rails (id : BankId) (band : Nat) (e : List Waveform) (s : State) : (finishLoad id band e s).rails = s.rails := by simp [finishLoad]
@[simp] theorem finishLoad_tally (id : BankId) (band : Nat) (e : List Waveform) (s : State) : (finishLoad id band e s).tally = s.tally := by simp [finishLoad]
@[simp] theorem finishLoad_resets (id : BankId) (band : Nat) (e : List Waveform) (s : State) : (finishLoad id band e s).resets = s.resets := by simp [finishLoad]
@[simp] theorem failLoad_pending (id : BankId) (band : Nat) (e : LibraryError) (s : State) : (failLoad id band e s).pending = s.pending := by simp [failLoad]
@[simp] theorem failLoad_dram (id : BankId) (band : Nat) (e : LibraryError) (s : State) : (failLoad id band e s).dram = s.dram := by simp [failLoad]
@[simp] theorem failLoad_pins (id : BankId) (band : Nat) (e : LibraryError) (s : State) : (failLoad id band e s).pins = s.pins := by simp [failLoad]
@[simp] theorem failLoad_port (id : BankId) (band : Nat) (e : LibraryError) (s : State) : (failLoad id band e s).port = s.port := by simp [failLoad]
@[simp] theorem failLoad_start (id : BankId) (band : Nat) (e : LibraryError) (s : State) : (failLoad id band e s).start = s.start := by simp [failLoad]
@[simp] theorem failLoad_setup (id : BankId) (band : Nat) (e : LibraryError) (s : State) : (failLoad id band e s).setup = s.setup := by simp [failLoad]
@[simp] theorem failLoad_monitor (id : BankId) (band : Nat) (e : LibraryError) (s : State) : (failLoad id band e s).monitor = s.monitor := by simp [failLoad]
@[simp] theorem failLoad_admission (id : BankId) (band : Nat) (e : LibraryError) (s : State) : (failLoad id band e s).admission = s.admission := by simp [failLoad]
@[simp] theorem failLoad_lanes (id : BankId) (band : Nat) (e : LibraryError) (s : State) : (failLoad id band e s).lanes = s.lanes := by simp [failLoad]
@[simp] theorem failLoad_closing (id : BankId) (band : Nat) (e : LibraryError) (s : State) : (failLoad id band e s).closing = s.closing := by simp [failLoad]
@[simp] theorem failLoad_frame (id : BankId) (band : Nat) (e : LibraryError) (s : State) : (failLoad id band e s).frame = s.frame := by simp [failLoad]
@[simp] theorem failLoad_links (id : BankId) (band : Nat) (e : LibraryError) (s : State) : (failLoad id band e s).links = s.links := by simp [failLoad]
@[simp] theorem failLoad_rails (id : BankId) (band : Nat) (e : LibraryError) (s : State) : (failLoad id band e s).rails = s.rails := by simp [failLoad]
@[simp] theorem failLoad_tally (id : BankId) (band : Nat) (e : LibraryError) (s : State) : (failLoad id band e s).tally = s.tally := by simp [failLoad]
@[simp] theorem failLoad_resets (id : BankId) (band : Nat) (e : LibraryError) (s : State) : (failLoad id band e s).resets = s.resets := by simp [failLoad]
@[simp] theorem evaluateBand_pending (s : State) : (evaluateBand s).pending = s.pending := by simp only [evaluateBand]; split <;> [rfl; (split <;> simp)]
@[simp] theorem evaluateBand_dram (s : State) : (evaluateBand s).dram = s.dram := by simp only [evaluateBand]; split <;> [rfl; (split <;> simp)]
@[simp] theorem evaluateBand_pins (s : State) : (evaluateBand s).pins = s.pins := by simp only [evaluateBand]; split <;> [rfl; (split <;> simp)]
@[simp] theorem evaluateBand_port (s : State) : (evaluateBand s).port = s.port := by simp only [evaluateBand]; split <;> [rfl; (split <;> simp)]
@[simp] theorem evaluateBand_notice (s : State) : (evaluateBand s).notice = s.notice := by simp only [evaluateBand]; split <;> [rfl; (split <;> simp)]
@[simp] theorem evaluateBand_start (s : State) : (evaluateBand s).start = s.start := by simp only [evaluateBand]; split <;> [rfl; (split <;> simp)]
@[simp] theorem evaluateBand_setup (s : State) : (evaluateBand s).setup = s.setup := by simp only [evaluateBand]; split <;> [rfl; (split <;> simp)]
@[simp] theorem evaluateBand_admission (s : State) : (evaluateBand s).admission = s.admission := by simp only [evaluateBand]; split <;> [rfl; (split <;> simp)]
@[simp] theorem evaluateBand_lanes (s : State) : (evaluateBand s).lanes = s.lanes := by simp only [evaluateBand]; split <;> [rfl; (split <;> simp)]
@[simp] theorem evaluateBand_closing (s : State) : (evaluateBand s).closing = s.closing := by simp only [evaluateBand]; split <;> [rfl; (split <;> simp)]
@[simp] theorem evaluateBand_frame (s : State) : (evaluateBand s).frame = s.frame := by simp only [evaluateBand]; split <;> [rfl; (split <;> simp)]
@[simp] theorem evaluateBand_links (s : State) : (evaluateBand s).links = s.links := by simp only [evaluateBand]; split <;> [rfl; (split <;> simp)]
@[simp] theorem evaluateBand_rails (s : State) : (evaluateBand s).rails = s.rails := by simp only [evaluateBand]; split <;> [rfl; (split <;> simp)]
@[simp] theorem evaluateBand_tally (s : State) : (evaluateBand s).tally = s.tally := by simp only [evaluateBand]; split <;> [rfl; (split <;> simp)]
@[simp] theorem evaluateBand_resets (s : State) : (evaluateBand s).resets = s.resets := by simp only [evaluateBand]; split <;> [rfl; (split <;> simp)]
@[simp] theorem updateMonitor_pending (m : Monitor) (s : State) : (updateMonitor m s).pending = s.pending := by simp only [updateMonitor]; split_ifs <;> simp
@[simp] theorem updateMonitor_dram (m : Monitor) (s : State) : (updateMonitor m s).dram = s.dram := by simp only [updateMonitor]; split_ifs <;> simp
@[simp] theorem updateMonitor_pins (m : Monitor) (s : State) : (updateMonitor m s).pins = s.pins := by simp only [updateMonitor]; split_ifs <;> simp
@[simp] theorem updateMonitor_port (m : Monitor) (s : State) : (updateMonitor m s).port = s.port := by simp only [updateMonitor]; split_ifs <;> simp
@[simp] theorem updateMonitor_start (m : Monitor) (s : State) : (updateMonitor m s).start = s.start := by simp only [updateMonitor]; split_ifs <;> simp
@[simp] theorem updateMonitor_setup (m : Monitor) (s : State) : (updateMonitor m s).setup = s.setup := by simp only [updateMonitor]; split_ifs <;> simp
@[simp] theorem updateMonitor_lanes (m : Monitor) (s : State) : (updateMonitor m s).lanes = s.lanes := by simp only [updateMonitor]; split_ifs <;> simp
@[simp] theorem updateMonitor_closing (m : Monitor) (s : State) : (updateMonitor m s).closing = s.closing := by simp only [updateMonitor]; split_ifs <;> simp
@[simp] theorem updateMonitor_frame (m : Monitor) (s : State) : (updateMonitor m s).frame = s.frame := by simp only [updateMonitor]; split_ifs <;> simp
@[simp] theorem updateMonitor_links (m : Monitor) (s : State) : (updateMonitor m s).links = s.links := by simp only [updateMonitor]; split_ifs <;> simp
@[simp] theorem updateMonitor_rails (m : Monitor) (s : State) : (updateMonitor m s).rails = s.rails := by simp only [updateMonitor]; split_ifs <;> simp
@[simp] theorem updateMonitor_tally (m : Monitor) (s : State) : (updateMonitor m s).tally = s.tally := by simp only [updateMonitor]; split_ifs <;> simp
@[simp] theorem updateMonitor_resets (m : Monitor) (s : State) : (updateMonitor m s).resets = s.resets := by simp only [updateMonitor]; split_ifs <;> simp
@[simp] theorem overrideRead_pending (value : Word) (s : State) : (overrideRead value s).pending = s.pending := by simp [overrideRead]
@[simp] theorem overrideRead_dram (value : Word) (s : State) : (overrideRead value s).dram = s.dram := by simp [overrideRead]
@[simp] theorem overrideRead_pins (value : Word) (s : State) : (overrideRead value s).pins = s.pins := by simp [overrideRead]
@[simp] theorem overrideRead_port (value : Word) (s : State) : (overrideRead value s).port = s.port := by simp [overrideRead]
@[simp] theorem overrideRead_start (value : Word) (s : State) : (overrideRead value s).start = s.start := by simp [overrideRead]
@[simp] theorem overrideRead_setup (value : Word) (s : State) : (overrideRead value s).setup = s.setup := by simp [overrideRead]
@[simp] theorem overrideRead_lanes (value : Word) (s : State) : (overrideRead value s).lanes = s.lanes := by simp [overrideRead]
@[simp] theorem overrideRead_closing (value : Word) (s : State) : (overrideRead value s).closing = s.closing := by simp [overrideRead]
@[simp] theorem overrideRead_frame (value : Word) (s : State) : (overrideRead value s).frame = s.frame := by simp [overrideRead]
@[simp] theorem overrideRead_links (value : Word) (s : State) : (overrideRead value s).links = s.links := by simp [overrideRead]
@[simp] theorem overrideRead_rails (value : Word) (s : State) : (overrideRead value s).rails = s.rails := by simp [overrideRead]
@[simp] theorem overrideRead_tally (value : Word) (s : State) : (overrideRead value s).tally = s.tally := by simp [overrideRead]
@[simp] theorem overrideRead_resets (value : Word) (s : State) : (overrideRead value s).resets = s.resets := by simp [overrideRead]
@[simp] theorem beginRead_pending (s : State) : (beginRead s).pending = s.pending := rfl
@[simp] theorem beginRead_dram (s : State) : (beginRead s).dram = s.dram := rfl
@[simp] theorem beginRead_pins (s : State) : (beginRead s).pins = s.pins := rfl
@[simp] theorem beginRead_port (s : State) : (beginRead s).port = s.port := rfl
@[simp] theorem beginRead_notice (s : State) : (beginRead s).notice = s.notice := rfl
@[simp] theorem beginRead_start (s : State) : (beginRead s).start = s.start := rfl
@[simp] theorem beginRead_setup (s : State) : (beginRead s).setup = s.setup := rfl
@[simp] theorem beginRead_banks (s : State) : (beginRead s).banks = s.banks := rfl
@[simp] theorem beginRead_board (s : State) : (beginRead s).board = s.board := rfl
@[simp] theorem beginRead_admission (s : State) : (beginRead s).admission = s.admission := rfl
@[simp] theorem beginRead_lanes (s : State) : (beginRead s).lanes = s.lanes := rfl
@[simp] theorem beginRead_closing (s : State) : (beginRead s).closing = s.closing := rfl
@[simp] theorem beginRead_frame (s : State) : (beginRead s).frame = s.frame := rfl
@[simp] theorem beginRead_links (s : State) : (beginRead s).links = s.links := rfl
@[simp] theorem beginRead_rails (s : State) : (beginRead s).rails = s.rails := rfl
@[simp] theorem beginRead_tally (s : State) : (beginRead s).tally = s.tally := rfl
@[simp] theorem beginRead_resets (s : State) : (beginRead s).resets = s.resets := rfl
@[simp] theorem readTick_pending (s : State) : (readTick s).pending = s.pending := by unfold readTick; split <;> simp
@[simp] theorem readTick_dram (s : State) : (readTick s).dram = s.dram := by unfold readTick; split <;> simp
@[simp] theorem readTick_pins (s : State) : (readTick s).pins = s.pins := by unfold readTick; split <;> simp
@[simp] theorem readTick_port (s : State) : (readTick s).port = s.port := by unfold readTick; split <;> simp
@[simp] theorem readTick_start (s : State) : (readTick s).start = s.start := by unfold readTick; split <;> simp
@[simp] theorem readTick_setup (s : State) : (readTick s).setup = s.setup := by unfold readTick; split <;> simp
@[simp] theorem readTick_lanes (s : State) : (readTick s).lanes = s.lanes := by unfold readTick; split <;> simp
@[simp] theorem readTick_closing (s : State) : (readTick s).closing = s.closing := by unfold readTick; split <;> simp
@[simp] theorem readTick_frame (s : State) : (readTick s).frame = s.frame := by unfold readTick; split <;> simp
@[simp] theorem readTick_links (s : State) : (readTick s).links = s.links := by unfold readTick; split <;> simp
@[simp] theorem readTick_rails (s : State) : (readTick s).rails = s.rails := by unfold readTick; split <;> simp
@[simp] theorem readTick_tally (s : State) : (readTick s).tally = s.tally := by unfold readTick; split <;> simp
@[simp] theorem readTick_resets (s : State) : (readTick s).resets = s.resets := by unfold readTick; split <;> simp
@[simp] theorem readFailed_pending (bus : List I2cEvent) (s : State) : (readFailed bus s).pending = s.pending := by simp [readFailed]
@[simp] theorem readFailed_dram (bus : List I2cEvent) (s : State) : (readFailed bus s).dram = s.dram := by simp [readFailed]
@[simp] theorem readFailed_pins (bus : List I2cEvent) (s : State) : (readFailed bus s).pins = s.pins := by simp [readFailed]
@[simp] theorem readFailed_port (bus : List I2cEvent) (s : State) : (readFailed bus s).port = s.port := by simp [readFailed]
@[simp] theorem readFailed_start (bus : List I2cEvent) (s : State) : (readFailed bus s).start = s.start := by simp [readFailed]
@[simp] theorem readFailed_setup (bus : List I2cEvent) (s : State) : (readFailed bus s).setup = s.setup := by simp [readFailed]
@[simp] theorem readFailed_lanes (bus : List I2cEvent) (s : State) : (readFailed bus s).lanes = s.lanes := by simp [readFailed]
@[simp] theorem readFailed_closing (bus : List I2cEvent) (s : State) : (readFailed bus s).closing = s.closing := by simp [readFailed]
@[simp] theorem readFailed_frame (bus : List I2cEvent) (s : State) : (readFailed bus s).frame = s.frame := by simp [readFailed]
@[simp] theorem readFailed_links (bus : List I2cEvent) (s : State) : (readFailed bus s).links = s.links := by simp [readFailed]
@[simp] theorem readFailed_rails (bus : List I2cEvent) (s : State) : (readFailed bus s).rails = s.rails := by simp [readFailed]
@[simp] theorem readFailed_tally (bus : List I2cEvent) (s : State) : (readFailed bus s).tally = s.tally := by simp [readFailed]
@[simp] theorem readFailed_resets (bus : List I2cEvent) (s : State) : (readFailed bus s).resets = s.resets := by simp [readFailed]
@[simp] theorem readData_pending (raw : Word) (s : State) : (readData raw s).pending = s.pending := by simp only [readData]; split <;> simp
@[simp] theorem readData_dram (raw : Word) (s : State) : (readData raw s).dram = s.dram := by simp only [readData]; split <;> simp
@[simp] theorem readData_pins (raw : Word) (s : State) : (readData raw s).pins = s.pins := by simp only [readData]; split <;> simp
@[simp] theorem readData_port (raw : Word) (s : State) : (readData raw s).port = s.port := by simp only [readData]; split <;> simp
@[simp] theorem readData_start (raw : Word) (s : State) : (readData raw s).start = s.start := by simp only [readData]; split <;> simp
@[simp] theorem readData_setup (raw : Word) (s : State) : (readData raw s).setup = s.setup := by simp only [readData]; split <;> simp
@[simp] theorem readData_lanes (raw : Word) (s : State) : (readData raw s).lanes = s.lanes := by simp only [readData]; split <;> simp
@[simp] theorem readData_closing (raw : Word) (s : State) : (readData raw s).closing = s.closing := by simp only [readData]; split <;> simp
@[simp] theorem readData_frame (raw : Word) (s : State) : (readData raw s).frame = s.frame := by simp only [readData]; split <;> simp
@[simp] theorem readData_links (raw : Word) (s : State) : (readData raw s).links = s.links := by simp only [readData]; split <;> simp
@[simp] theorem readData_rails (raw : Word) (s : State) : (readData raw s).rails = s.rails := by simp only [readData]; split <;> simp
@[simp] theorem readData_tally (raw : Word) (s : State) : (readData raw s).tally = s.tally := by simp only [readData]; split <;> simp
@[simp] theorem readData_resets (raw : Word) (s : State) : (readData raw s).resets = s.resets := by simp only [readData]; split <;> simp
end Sys2Proof.Machine
end

