-- ==== Sys2Proof/Laws/Blocks.lean ====
section
/-! SUPPORT. What each operation of the blocks leaves as it was, field by field: the operations that hand on to one another
(a fault to the lanes, a lane to the rails, a finish to a lane), up to the commands' own. -/

namespace Sys2Proof.Machine

@[simp] theorem enterClosing_pending (n : Fin 32) (e : Ending) (ts : List (Nat × Nat × Nat)) (s : State) : (enterClosing n e ts s).pending = s.pending := by simp [enterClosing]
@[simp] theorem enterClosing_dram (n : Fin 32) (e : Ending) (ts : List (Nat × Nat × Nat)) (s : State) : (enterClosing n e ts s).dram = s.dram := by simp [enterClosing]
@[simp] theorem enterClosing_pins (n : Fin 32) (e : Ending) (ts : List (Nat × Nat × Nat)) (s : State) : (enterClosing n e ts s).pins = s.pins := by simp [enterClosing]
@[simp] theorem enterClosing_port (n : Fin 32) (e : Ending) (ts : List (Nat × Nat × Nat)) (s : State) : (enterClosing n e ts s).port = s.port := by simp [enterClosing]
@[simp] theorem enterClosing_notice (n : Fin 32) (e : Ending) (ts : List (Nat × Nat × Nat)) (s : State) : (enterClosing n e ts s).notice = s.notice := by simp [enterClosing]
@[simp] theorem enterClosing_start (n : Fin 32) (e : Ending) (ts : List (Nat × Nat × Nat)) (s : State) : (enterClosing n e ts s).start = s.start := by simp [enterClosing]
@[simp] theorem enterClosing_setup (n : Fin 32) (e : Ending) (ts : List (Nat × Nat × Nat)) (s : State) : (enterClosing n e ts s).setup = s.setup := by simp [enterClosing]
@[simp] theorem enterClosing_banks (n : Fin 32) (e : Ending) (ts : List (Nat × Nat × Nat)) (s : State) : (enterClosing n e ts s).banks = s.banks := by simp [enterClosing]
@[simp] theorem enterClosing_monitor (n : Fin 32) (e : Ending) (ts : List (Nat × Nat × Nat)) (s : State) : (enterClosing n e ts s).monitor = s.monitor := by simp [enterClosing]
@[simp] theorem enterClosing_board (n : Fin 32) (e : Ending) (ts : List (Nat × Nat × Nat)) (s : State) : (enterClosing n e ts s).board = s.board := by simp [enterClosing]
@[simp] theorem enterClosing_admission (n : Fin 32) (e : Ending) (ts : List (Nat × Nat × Nat)) (s : State) : (enterClosing n e ts s).admission = s.admission := by simp [enterClosing]
@[simp] theorem enterClosing_frame (n : Fin 32) (e : Ending) (ts : List (Nat × Nat × Nat)) (s : State) : (enterClosing n e ts s).frame = s.frame := by simp [enterClosing]
@[simp] theorem enterClosing_links (n : Fin 32) (e : Ending) (ts : List (Nat × Nat × Nat)) (s : State) : (enterClosing n e ts s).links = s.links := by simp [enterClosing]
@[simp] theorem enterClosing_rails (n : Fin 32) (e : Ending) (ts : List (Nat × Nat × Nat)) (s : State) : (enterClosing n e ts s).rails = s.rails := by simp [enterClosing]
@[simp] theorem enterClosing_tally (n : Fin 32) (e : Ending) (ts : List (Nat × Nat × Nat)) (s : State) : (enterClosing n e ts s).tally = s.tally := by simp [enterClosing]
@[simp] theorem enterClosing_resets (n : Fin 32) (e : Ending) (ts : List (Nat × Nat × Nat)) (s : State) : (enterClosing n e ts s).resets = s.resets := by simp [enterClosing]
@[simp] theorem closeStep_pending (n : Fin 32) (s : State) : (closeStep n s).pending = s.pending := by unfold closeStep; dsimp only; split <;> simp
@[simp] theorem closeStep_pins (n : Fin 32) (s : State) : (closeStep n s).pins = s.pins := by unfold closeStep; dsimp only; split <;> simp
@[simp] theorem closeStep_port (n : Fin 32) (s : State) : (closeStep n s).port = s.port := by unfold closeStep; dsimp only; split <;> simp
@[simp] theorem closeStep_notice (n : Fin 32) (s : State) : (closeStep n s).notice = s.notice := by unfold closeStep; dsimp only; split <;> simp
@[simp] theorem closeStep_start (n : Fin 32) (s : State) : (closeStep n s).start = s.start := by unfold closeStep; dsimp only; split <;> simp
@[simp] theorem closeStep_setup (n : Fin 32) (s : State) : (closeStep n s).setup = s.setup := by unfold closeStep; dsimp only; split <;> simp
@[simp] theorem closeStep_banks (n : Fin 32) (s : State) : (closeStep n s).banks = s.banks := by unfold closeStep; dsimp only; split <;> simp
@[simp] theorem closeStep_monitor (n : Fin 32) (s : State) : (closeStep n s).monitor = s.monitor := by unfold closeStep; dsimp only; split <;> simp
@[simp] theorem closeStep_admission (n : Fin 32) (s : State) : (closeStep n s).admission = s.admission := by unfold closeStep; dsimp only; split <;> simp
@[simp] theorem closeStep_frame (n : Fin 32) (s : State) : (closeStep n s).frame = s.frame := by unfold closeStep; dsimp only; split <;> simp
@[simp] theorem closeStep_links (n : Fin 32) (s : State) : (closeStep n s).links = s.links := by unfold closeStep; dsimp only; split <;> simp
@[simp] theorem closeStep_rails (n : Fin 32) (s : State) : (closeStep n s).rails = s.rails := by unfold closeStep; dsimp only; split <;> simp
@[simp] theorem closeStep_tally (n : Fin 32) (s : State) : (closeStep n s).tally = s.tally := by unfold closeStep; dsimp only; split <;> simp
@[simp] theorem closeStep_resets (n : Fin 32) (s : State) : (closeStep n s).resets = s.resets := by unfold closeStep; dsimp only; split <;> simp
@[simp] theorem closeTick_pending (s : State) : (closeTick s).pending = s.pending := by unfold closeTick; split <;> simp
@[simp] theorem closeTick_pins (s : State) : (closeTick s).pins = s.pins := by unfold closeTick; split <;> simp
@[simp] theorem closeTick_port (s : State) : (closeTick s).port = s.port := by unfold closeTick; split <;> simp
@[simp] theorem closeTick_notice (s : State) : (closeTick s).notice = s.notice := by unfold closeTick; split <;> simp
@[simp] theorem closeTick_start (s : State) : (closeTick s).start = s.start := by unfold closeTick; split <;> simp
@[simp] theorem closeTick_setup (s : State) : (closeTick s).setup = s.setup := by unfold closeTick; split <;> simp
@[simp] theorem closeTick_banks (s : State) : (closeTick s).banks = s.banks := by unfold closeTick; split <;> simp
@[simp] theorem closeTick_monitor (s : State) : (closeTick s).monitor = s.monitor := by unfold closeTick; split <;> simp
@[simp] theorem closeTick_admission (s : State) : (closeTick s).admission = s.admission := by unfold closeTick; split <;> simp
@[simp] theorem closeTick_frame (s : State) : (closeTick s).frame = s.frame := by unfold closeTick; split <;> simp
@[simp] theorem closeTick_links (s : State) : (closeTick s).links = s.links := by unfold closeTick; split <;> simp
@[simp] theorem closeTick_rails (s : State) : (closeTick s).rails = s.rails := by unfold closeTick; split <;> simp
@[simp] theorem closeTick_tally (s : State) : (closeTick s).tally = s.tally := by unfold closeTick; split <;> simp
@[simp] theorem closeTick_resets (s : State) : (closeTick s).resets = s.resets := by unfold closeTick; split <;> simp
@[simp] theorem breakLane_pending (src : FaultSource) (n : Fin 32) (s : State) : (breakLane src n s).pending = s.pending := by simp [breakLane]
@[simp] theorem breakLane_pins (src : FaultSource) (n : Fin 32) (s : State) : (breakLane src n s).pins = s.pins := by simp [breakLane]
@[simp] theorem breakLane_port (src : FaultSource) (n : Fin 32) (s : State) : (breakLane src n s).port = s.port := by simp [breakLane]
@[simp] theorem breakLane_notice (src : FaultSource) (n : Fin 32) (s : State) : (breakLane src n s).notice = s.notice := by simp [breakLane]
@[simp] theorem breakLane_start (src : FaultSource) (n : Fin 32) (s : State) : (breakLane src n s).start = s.start := by simp [breakLane]
@[simp] theorem breakLane_setup (src : FaultSource) (n : Fin 32) (s : State) : (breakLane src n s).setup = s.setup := by simp [breakLane]
@[simp] theorem breakLane_banks (src : FaultSource) (n : Fin 32) (s : State) : (breakLane src n s).banks = s.banks := by simp [breakLane]
@[simp] theorem breakLane_monitor (src : FaultSource) (n : Fin 32) (s : State) : (breakLane src n s).monitor = s.monitor := by simp [breakLane]
@[simp] theorem breakLane_board (src : FaultSource) (n : Fin 32) (s : State) : (breakLane src n s).board = s.board := by simp [breakLane]
@[simp] theorem breakLane_admission (src : FaultSource) (n : Fin 32) (s : State) : (breakLane src n s).admission = s.admission := by simp [breakLane]
@[simp] theorem breakLane_frame (src : FaultSource) (n : Fin 32) (s : State) : (breakLane src n s).frame = s.frame := by simp [breakLane]
@[simp] theorem breakLane_links (src : FaultSource) (n : Fin 32) (s : State) : (breakLane src n s).links = s.links := by simp [breakLane]
@[simp] theorem breakLane_rails (src : FaultSource) (n : Fin 32) (s : State) : (breakLane src n s).rails = s.rails := by simp [breakLane]
@[simp] theorem breakLane_tally (src : FaultSource) (n : Fin 32) (s : State) : (breakLane src n s).tally = s.tally := by simp [breakLane]
@[simp] theorem breakLane_resets (src : FaultSource) (n : Fin 32) (s : State) : (breakLane src n s).resets = s.resets := by simp [breakLane]
@[simp] theorem stopFetch_pending (n : Fin 32) (s : State) : (stopFetch n s).pending = s.pending := by unfold stopFetch; split <;> [split <;> rfl; rfl]
@[simp] theorem stopFetch_dram (n : Fin 32) (s : State) : (stopFetch n s).dram = s.dram := by unfold stopFetch; split <;> [split <;> rfl; rfl]
@[simp] theorem stopFetch_pins (n : Fin 32) (s : State) : (stopFetch n s).pins = s.pins := by unfold stopFetch; split <;> [split <;> rfl; rfl]
@[simp] theorem stopFetch_port (n : Fin 32) (s : State) : (stopFetch n s).port = s.port := by unfold stopFetch; split <;> [split <;> rfl; rfl]
@[simp] theorem stopFetch_notice (n : Fin 32) (s : State) : (stopFetch n s).notice = s.notice := by unfold stopFetch; split <;> [split <;> rfl; rfl]
@[simp] theorem stopFetch_start (n : Fin 32) (s : State) : (stopFetch n s).start = s.start := by unfold stopFetch; split <;> [split <;> rfl; rfl]
@[simp] theorem stopFetch_setup (n : Fin 32) (s : State) : (stopFetch n s).setup = s.setup := by unfold stopFetch; split <;> [split <;> rfl; rfl]
@[simp] theorem stopFetch_banks (n : Fin 32) (s : State) : (stopFetch n s).banks = s.banks := by unfold stopFetch; split <;> [split <;> rfl; rfl]
@[simp] theorem stopFetch_monitor (n : Fin 32) (s : State) : (stopFetch n s).monitor = s.monitor := by unfold stopFetch; split <;> [split <;> rfl; rfl]
@[simp] theorem stopFetch_board (n : Fin 32) (s : State) : (stopFetch n s).board = s.board := by unfold stopFetch; split <;> [split <;> rfl; rfl]
@[simp] theorem stopFetch_lanes (n : Fin 32) (s : State) : (stopFetch n s).lanes = s.lanes := by unfold stopFetch; split <;> [split <;> rfl; rfl]
@[simp] theorem stopFetch_closing (n : Fin 32) (s : State) : (stopFetch n s).closing = s.closing := by unfold stopFetch; split <;> [split <;> rfl; rfl]
@[simp] theorem stopFetch_frame (n : Fin 32) (s : State) : (stopFetch n s).frame = s.frame := by unfold stopFetch; split <;> [split <;> rfl; rfl]
@[simp] theorem stopFetch_links (n : Fin 32) (s : State) : (stopFetch n s).links = s.links := by unfold stopFetch; split <;> [split <;> rfl; rfl]
@[simp] theorem stopFetch_rails (n : Fin 32) (s : State) : (stopFetch n s).rails = s.rails := by unfold stopFetch; split <;> [split <;> rfl; rfl]
@[simp] theorem stopFetch_tally (n : Fin 32) (s : State) : (stopFetch n s).tally = s.tally := by unfold stopFetch; split <;> [split <;> rfl; rfl]
@[simp] theorem stopFetch_resets (n : Fin 32) (s : State) : (stopFetch n s).resets = s.resets := by unfold stopFetch; split <;> [split <;> rfl; rfl]
@[simp] theorem releaseLane_pending (src : FaultSource) (n : Fin 32) (s : State) : (releaseLane src n s).pending = s.pending := by simp [releaseLane]
@[simp] theorem releaseLane_pins (src : FaultSource) (n : Fin 32) (s : State) : (releaseLane src n s).pins = s.pins := by simp [releaseLane]
@[simp] theorem releaseLane_port (src : FaultSource) (n : Fin 32) (s : State) : (releaseLane src n s).port = s.port := by simp [releaseLane]
@[simp] theorem releaseLane_notice (src : FaultSource) (n : Fin 32) (s : State) : (releaseLane src n s).notice = s.notice := by simp [releaseLane]
@[simp] theorem releaseLane_start (src : FaultSource) (n : Fin 32) (s : State) : (releaseLane src n s).start = s.start := by simp [releaseLane]
@[simp] theorem releaseLane_setup (src : FaultSource) (n : Fin 32) (s : State) : (releaseLane src n s).setup = s.setup := by simp [releaseLane]
@[simp] theorem releaseLane_banks (src : FaultSource) (n : Fin 32) (s : State) : (releaseLane src n s).banks = s.banks := by simp [releaseLane]
@[simp] theorem releaseLane_monitor (src : FaultSource) (n : Fin 32) (s : State) : (releaseLane src n s).monitor = s.monitor := by simp [releaseLane]
@[simp] theorem releaseLane_board (src : FaultSource) (n : Fin 32) (s : State) : (releaseLane src n s).board = s.board := by simp [releaseLane]
@[simp] theorem releaseLane_frame (src : FaultSource) (n : Fin 32) (s : State) : (releaseLane src n s).frame = s.frame := by simp [releaseLane]
@[simp] theorem releaseLane_links (src : FaultSource) (n : Fin 32) (s : State) : (releaseLane src n s).links = s.links := by simp [releaseLane]
@[simp] theorem releaseLane_rails (src : FaultSource) (n : Fin 32) (s : State) : (releaseLane src n s).rails = s.rails := by simp [releaseLane]
@[simp] theorem releaseLane_tally (src : FaultSource) (n : Fin 32) (s : State) : (releaseLane src n s).tally = s.tally := by simp [releaseLane]
@[simp] theorem releaseLane_resets (src : FaultSource) (n : Fin 32) (s : State) : (releaseLane src n s).resets = s.resets := by simp [releaseLane]
@[simp] theorem faultStep_pending (src : FaultSource) (n : Fin 32) (s : State) : (faultStep src n s).pending = s.pending := by unfold faultStep; split <;> simp
@[simp] theorem faultStep_pins (src : FaultSource) (n : Fin 32) (s : State) : (faultStep src n s).pins = s.pins := by unfold faultStep; split <;> simp
@[simp] theorem faultStep_port (src : FaultSource) (n : Fin 32) (s : State) : (faultStep src n s).port = s.port := by unfold faultStep; split <;> simp
@[simp] theorem faultStep_notice (src : FaultSource) (n : Fin 32) (s : State) : (faultStep src n s).notice = s.notice := by unfold faultStep; split <;> simp
@[simp] theorem faultStep_start (src : FaultSource) (n : Fin 32) (s : State) : (faultStep src n s).start = s.start := by unfold faultStep; split <;> simp
@[simp] theorem faultStep_setup (src : FaultSource) (n : Fin 32) (s : State) : (faultStep src n s).setup = s.setup := by unfold faultStep; split <;> simp
@[simp] theorem faultStep_banks (src : FaultSource) (n : Fin 32) (s : State) : (faultStep src n s).banks = s.banks := by unfold faultStep; split <;> simp
@[simp] theorem faultStep_monitor (src : FaultSource) (n : Fin 32) (s : State) : (faultStep src n s).monitor = s.monitor := by unfold faultStep; split <;> simp
@[simp] theorem faultStep_board (src : FaultSource) (n : Fin 32) (s : State) : (faultStep src n s).board = s.board := by unfold faultStep; split <;> simp
@[simp] theorem faultStep_frame (src : FaultSource) (n : Fin 32) (s : State) : (faultStep src n s).frame = s.frame := by unfold faultStep; split <;> simp
@[simp] theorem faultStep_links (src : FaultSource) (n : Fin 32) (s : State) : (faultStep src n s).links = s.links := by unfold faultStep; split <;> simp
@[simp] theorem faultStep_rails (src : FaultSource) (n : Fin 32) (s : State) : (faultStep src n s).rails = s.rails := by unfold faultStep; split <;> simp
@[simp] theorem faultStep_tally (src : FaultSource) (n : Fin 32) (s : State) : (faultStep src n s).tally = s.tally := by unfold faultStep; split <;> simp
@[simp] theorem faultStep_resets (src : FaultSource) (n : Fin 32) (s : State) : (faultStep src n s).resets = s.resets := by unfold faultStep; split <;> simp
@[simp] theorem takeFault_pending (src : FaultSource) (s : State) : (takeFault src s).pending = s.pending := foldl_keeps State.pending _ (fun s a => by simp) _ s
@[simp] theorem takeFault_pins (src : FaultSource) (s : State) : (takeFault src s).pins = s.pins := foldl_keeps State.pins _ (fun s a => by simp) _ s
@[simp] theorem takeFault_port (src : FaultSource) (s : State) : (takeFault src s).port = s.port := foldl_keeps State.port _ (fun s a => by simp) _ s
@[simp] theorem takeFault_notice (src : FaultSource) (s : State) : (takeFault src s).notice = s.notice := foldl_keeps State.notice _ (fun s a => by simp) _ s
@[simp] theorem takeFault_start (src : FaultSource) (s : State) : (takeFault src s).start = s.start := foldl_keeps State.start _ (fun s a => by simp) _ s
@[simp] theorem takeFault_setup (src : FaultSource) (s : State) : (takeFault src s).setup = s.setup := foldl_keeps State.setup _ (fun s a => by simp) _ s
@[simp] theorem takeFault_banks (src : FaultSource) (s : State) : (takeFault src s).banks = s.banks := foldl_keeps State.banks _ (fun s a => by simp) _ s
@[simp] theorem takeFault_monitor (src : FaultSource) (s : State) : (takeFault src s).monitor = s.monitor := foldl_keeps State.monitor _ (fun s a => by simp) _ s
@[simp] theorem takeFault_board (src : FaultSource) (s : State) : (takeFault src s).board = s.board := foldl_keeps State.board _ (fun s a => by simp) _ s
@[simp] theorem takeFault_frame (src : FaultSource) (s : State) : (takeFault src s).frame = s.frame := foldl_keeps State.frame _ (fun s a => by simp) _ s
@[simp] theorem takeFault_links (src : FaultSource) (s : State) : (takeFault src s).links = s.links := foldl_keeps State.links _ (fun s a => by simp) _ s
@[simp] theorem takeFault_rails (src : FaultSource) (s : State) : (takeFault src s).rails = s.rails := foldl_keeps State.rails _ (fun s a => by simp) _ s
@[simp] theorem takeFault_tally (src : FaultSource) (s : State) : (takeFault src s).tally = s.tally := foldl_keeps State.tally _ (fun s a => by simp) _ s
@[simp] theorem takeFault_resets (src : FaultSource) (s : State) : (takeFault src s).resets = s.resets := foldl_keeps State.resets _ (fun s a => by simp) _ s
@[simp] theorem tallyPublish_pending (s : State) : (tallyPublish s).pending = s.pending := by simp [tallyPublish]
@[simp] theorem tallyPublish_dram (s : State) : (tallyPublish s).dram = s.dram := by simp [tallyPublish]
@[simp] theorem tallyPublish_pins (s : State) : (tallyPublish s).pins = s.pins := by simp [tallyPublish]
@[simp] theorem tallyPublish_port (s : State) : (tallyPublish s).port = s.port := by simp [tallyPublish]
@[simp] theorem tallyPublish_notice (s : State) : (tallyPublish s).notice = s.notice := by simp [tallyPublish]
@[simp] theorem tallyPublish_start (s : State) : (tallyPublish s).start = s.start := by simp [tallyPublish]
@[simp] theorem tallyPublish_setup (s : State) : (tallyPublish s).setup = s.setup := by simp [tallyPublish]
@[simp] theorem tallyPublish_banks (s : State) : (tallyPublish s).banks = s.banks := by simp [tallyPublish]
@[simp] theorem tallyPublish_monitor (s : State) : (tallyPublish s).monitor = s.monitor := by simp [tallyPublish]
@[simp] theorem tallyPublish_admission (s : State) : (tallyPublish s).admission = s.admission := by simp [tallyPublish]
@[simp] theorem tallyPublish_lanes (s : State) : (tallyPublish s).lanes = s.lanes := by simp [tallyPublish]
@[simp] theorem tallyPublish_closing (s : State) : (tallyPublish s).closing = s.closing := by simp [tallyPublish]
@[simp] theorem tallyPublish_frame (s : State) : (tallyPublish s).frame = s.frame := by simp [tallyPublish]
@[simp] theorem tallyPublish_links (s : State) : (tallyPublish s).links = s.links := by simp [tallyPublish]
@[simp] theorem tallyPublish_rails (s : State) : (tallyPublish s).rails = s.rails := by simp [tallyPublish]
@[simp] theorem tallyPublish_resets (s : State) : (tallyPublish s).resets = s.resets := by simp [tallyPublish]
@[simp] theorem abandonFrames_pending (s : State) : (abandonFrames s).pending = s.pending := rfl
@[simp] theorem abandonFrames_dram (s : State) : (abandonFrames s).dram = s.dram := rfl
@[simp] theorem abandonFrames_pins (s : State) : (abandonFrames s).pins = s.pins := rfl
@[simp] theorem abandonFrames_port (s : State) : (abandonFrames s).port = s.port := rfl
@[simp] theorem abandonFrames_notice (s : State) : (abandonFrames s).notice = s.notice := rfl
@[simp] theorem abandonFrames_start (s : State) : (abandonFrames s).start = s.start := rfl
@[simp] theorem abandonFrames_setup (s : State) : (abandonFrames s).setup = s.setup := rfl
@[simp] theorem abandonFrames_banks (s : State) : (abandonFrames s).banks = s.banks := rfl
@[simp] theorem abandonFrames_monitor (s : State) : (abandonFrames s).monitor = s.monitor := rfl
@[simp] theorem abandonFrames_board (s : State) : (abandonFrames s).board = s.board := rfl
@[simp] theorem abandonFrames_admission (s : State) : (abandonFrames s).admission = s.admission := rfl
@[simp] theorem abandonFrames_lanes (s : State) : (abandonFrames s).lanes = s.lanes := rfl
@[simp] theorem abandonFrames_closing (s : State) : (abandonFrames s).closing = s.closing := rfl
@[simp] theorem abandonFrames_frame (s : State) : (abandonFrames s).frame = s.frame := rfl
@[simp] theorem abandonFrames_rails (s : State) : (abandonFrames s).rails = s.rails := rfl
@[simp] theorem abandonFrames_tally (s : State) : (abandonFrames s).tally = s.tally := rfl
@[simp] theorem abandonFrames_resets (s : State) : (abandonFrames s).resets = s.resets := rfl
@[simp] theorem judgeIdle_pending (s : State) : (judgeIdle s).pending = s.pending := rfl
@[simp] theorem judgeIdle_dram (s : State) : (judgeIdle s).dram = s.dram := rfl
@[simp] theorem judgeIdle_pins (s : State) : (judgeIdle s).pins = s.pins := rfl
@[simp] theorem judgeIdle_port (s : State) : (judgeIdle s).port = s.port := rfl
@[simp] theorem judgeIdle_notice (s : State) : (judgeIdle s).notice = s.notice := rfl
@[simp] theorem judgeIdle_start (s : State) : (judgeIdle s).start = s.start := rfl
@[simp] theorem judgeIdle_setup (s : State) : (judgeIdle s).setup = s.setup := rfl
@[simp] theorem judgeIdle_banks (s : State) : (judgeIdle s).banks = s.banks := rfl
@[simp] theorem judgeIdle_monitor (s : State) : (judgeIdle s).monitor = s.monitor := rfl
@[simp] theorem judgeIdle_board (s : State) : (judgeIdle s).board = s.board := rfl
@[simp] theorem judgeIdle_admission (s : State) : (judgeIdle s).admission = s.admission := rfl
@[simp] theorem judgeIdle_lanes (s : State) : (judgeIdle s).lanes = s.lanes := rfl
@[simp] theorem judgeIdle_closing (s : State) : (judgeIdle s).closing = s.closing := rfl
@[simp] theorem judgeIdle_frame (s : State) : (judgeIdle s).frame = s.frame := rfl
@[simp] theorem judgeIdle_links (s : State) : (judgeIdle s).links = s.links := rfl
@[simp] theorem judgeIdle_tally (s : State) : (judgeIdle s).tally = s.tally := rfl
@[simp] theorem judgeIdle_resets (s : State) : (judgeIdle s).resets = s.resets := rfl
@[simp] theorem enterRising_pending (s : State) : (enterRising s).pending = s.pending := by simp [enterRising]
@[simp] theorem enterRising_dram (s : State) : (enterRising s).dram = s.dram := by simp [enterRising]
@[simp] theorem enterRising_pins (s : State) : (enterRising s).pins = s.pins := by simp [enterRising]
@[simp] theorem enterRising_port (s : State) : (enterRising s).port = s.port := by simp [enterRising]
@[simp] theorem enterRising_notice (s : State) : (enterRising s).notice = s.notice := by simp [enterRising]
@[simp] theorem enterRising_start (s : State) : (enterRising s).start = s.start := by simp [enterRising]
@[simp] theorem enterRising_setup (s : State) : (enterRising s).setup = s.setup := by simp [enterRising]
@[simp] theorem enterRising_banks (s : State) : (enterRising s).banks = s.banks := by simp [enterRising]
@[simp] theorem enterRising_monitor (s : State) : (enterRising s).monitor = s.monitor := by simp [enterRising]
@[simp] theorem enterRising_admission (s : State) : (enterRising s).admission = s.admission := by simp [enterRising]
@[simp] theorem enterRising_lanes (s : State) : (enterRising s).lanes = s.lanes := by simp [enterRising]
@[simp] theorem enterRising_closing (s : State) : (enterRising s).closing = s.closing := by simp [enterRising]
@[simp] theorem enterRising_links (s : State) : (enterRising s).links = s.links := by simp [enterRising]
@[simp] theorem enterRising_tally (s : State) : (enterRising s).tally = s.tally := by simp [enterRising]
@[simp] theorem enterRising_resets (s : State) : (enterRising s).resets = s.resets := by simp [enterRising]
@[simp] theorem assertNext_pending (s : State) : (assertNext s).pending = s.pending := rfl
@[simp] theorem assertNext_dram (s : State) : (assertNext s).dram = s.dram := rfl
@[simp] theorem assertNext_pins (s : State) : (assertNext s).pins = s.pins := rfl
@[simp] theorem assertNext_port (s : State) : (assertNext s).port = s.port := rfl
@[simp] theorem assertNext_notice (s : State) : (assertNext s).notice = s.notice := rfl
@[simp] theorem assertNext_start (s : State) : (assertNext s).start = s.start := rfl
@[simp] theorem assertNext_setup (s : State) : (assertNext s).setup = s.setup := rfl
@[simp] theorem assertNext_banks (s : State) : (assertNext s).banks = s.banks := rfl
@[simp] theorem assertNext_monitor (s : State) : (assertNext s).monitor = s.monitor := rfl
@[simp] theorem assertNext_board (s : State) : (assertNext s).board = s.board := rfl
@[simp] theorem assertNext_admission (s : State) : (assertNext s).admission = s.admission := rfl
@[simp] theorem assertNext_lanes (s : State) : (assertNext s).lanes = s.lanes := rfl
@[simp] theorem assertNext_closing (s : State) : (assertNext s).closing = s.closing := rfl
@[simp] theorem assertNext_frame (s : State) : (assertNext s).frame = s.frame := rfl
@[simp] theorem assertNext_links (s : State) : (assertNext s).links = s.links := rfl
@[simp] theorem assertNext_tally (s : State) : (assertNext s).tally = s.tally := rfl
@[simp] theorem assertNext_resets (s : State) : (assertNext s).resets = s.resets := rfl
@[simp] theorem enterOn_pending (s : State) : (enterOn s).pending = s.pending := by simp [enterOn]
@[simp] theorem enterOn_dram (s : State) : (enterOn s).dram = s.dram := by simp [enterOn]
@[simp] theorem enterOn_pins (s : State) : (enterOn s).pins = s.pins := by simp [enterOn]
@[simp] theorem enterOn_port (s : State) : (enterOn s).port = s.port := by simp [enterOn]
@[simp] theorem enterOn_notice (s : State) : (enterOn s).notice = s.notice := by simp [enterOn]
@[simp] theorem enterOn_start (s : State) : (enterOn s).start = s.start := by simp [enterOn]
@[simp] theorem enterOn_setup (s : State) : (enterOn s).setup = s.setup := by simp [enterOn]
@[simp] theorem enterOn_banks (s : State) : (enterOn s).banks = s.banks := by simp [enterOn]
@[simp] theorem enterOn_monitor (s : State) : (enterOn s).monitor = s.monitor := by simp [enterOn]
@[simp] theorem enterOn_lanes (s : State) : (enterOn s).lanes = s.lanes := by simp [enterOn]
@[simp] theorem enterOn_closing (s : State) : (enterOn s).closing = s.closing := by simp [enterOn]
@[simp] theorem enterOn_frame (s : State) : (enterOn s).frame = s.frame := by simp [enterOn]
@[simp] theorem enterOn_links (s : State) : (enterOn s).links = s.links := by simp [enterOn]
@[simp] theorem enterOn_tally (s : State) : (enterOn s).tally = s.tally := by simp [enterOn]
@[simp] theorem enterOn_resets (s : State) : (enterOn s).resets = s.resets := by simp [enterOn]
@[simp] theorem enterFalling_pending (s : State) : (enterFalling s).pending = s.pending := by simp [enterFalling]
@[simp] theorem enterFalling_dram (s : State) : (enterFalling s).dram = s.dram := by simp [enterFalling]
@[simp] theorem enterFalling_pins (s : State) : (enterFalling s).pins = s.pins := by simp [enterFalling]
@[simp] theorem enterFalling_port (s : State) : (enterFalling s).port = s.port := by simp [enterFalling]
@[simp] theorem enterFalling_notice (s : State) : (enterFalling s).notice = s.notice := by simp [enterFalling]
@[simp] theorem enterFalling_start (s : State) : (enterFalling s).start = s.start := by simp [enterFalling]
@[simp] theorem enterFalling_setup (s : State) : (enterFalling s).setup = s.setup := by simp [enterFalling]
@[simp] theorem enterFalling_banks (s : State) : (enterFalling s).banks = s.banks := by simp [enterFalling]
@[simp] theorem enterFalling_monitor (s : State) : (enterFalling s).monitor = s.monitor := by simp [enterFalling]
@[simp] theorem enterFalling_admission (s : State) : (enterFalling s).admission = s.admission := by simp [enterFalling]
@[simp] theorem enterFalling_lanes (s : State) : (enterFalling s).lanes = s.lanes := by simp [enterFalling]
@[simp] theorem enterFalling_closing (s : State) : (enterFalling s).closing = s.closing := by simp [enterFalling]
@[simp] theorem enterFalling_tally (s : State) : (enterFalling s).tally = s.tally := by simp [enterFalling]
@[simp] theorem enterFalling_resets (s : State) : (enterFalling s).resets = s.resets := by simp [enterFalling]
@[simp] theorem enterOff_pending (s : State) : (enterOff s).pending = s.pending := by simp [enterOff]
@[simp] theorem enterOff_dram (s : State) : (enterOff s).dram = s.dram := by simp [enterOff]
@[simp] theorem enterOff_pins (s : State) : (enterOff s).pins = s.pins := by simp [enterOff]
@[simp] theorem enterOff_port (s : State) : (enterOff s).port = s.port := by simp [enterOff]
@[simp] theorem enterOff_notice (s : State) : (enterOff s).notice = s.notice := by simp [enterOff]
@[simp] theorem enterOff_start (s : State) : (enterOff s).start = s.start := by simp [enterOff]
@[simp] theorem enterOff_setup (s : State) : (enterOff s).setup = s.setup := by simp [enterOff]
@[simp] theorem enterOff_banks (s : State) : (enterOff s).banks = s.banks := by simp [enterOff]
@[simp] theorem enterOff_monitor (s : State) : (enterOff s).monitor = s.monitor := by simp [enterOff]
@[simp] theorem enterOff_lanes (s : State) : (enterOff s).lanes = s.lanes := by simp [enterOff]
@[simp] theorem enterOff_closing (s : State) : (enterOff s).closing = s.closing := by simp [enterOff]
@[simp] theorem enterOff_frame (s : State) : (enterOff s).frame = s.frame := by simp [enterOff]
@[simp] theorem enterOff_links (s : State) : (enterOff s).links = s.links := by simp [enterOff]
@[simp] theorem enterOff_resets (s : State) : (enterOff s).resets = s.resets := by simp [enterOff]
@[simp] theorem releaseNext_pending (s : State) : (releaseNext s).pending = s.pending := by unfold releaseNext; split <;> simp
@[simp] theorem releaseNext_dram (s : State) : (releaseNext s).dram = s.dram := by unfold releaseNext; split <;> simp
@[simp] theorem releaseNext_pins (s : State) : (releaseNext s).pins = s.pins := by unfold releaseNext; split <;> simp
@[simp] theorem releaseNext_port (s : State) : (releaseNext s).port = s.port := by unfold releaseNext; split <;> simp
@[simp] theorem releaseNext_notice (s : State) : (releaseNext s).notice = s.notice := by unfold releaseNext; split <;> simp
@[simp] theorem releaseNext_start (s : State) : (releaseNext s).start = s.start := by unfold releaseNext; split <;> simp
@[simp] theorem releaseNext_setup (s : State) : (releaseNext s).setup = s.setup := by unfold releaseNext; split <;> simp
@[simp] theorem releaseNext_banks (s : State) : (releaseNext s).banks = s.banks := by unfold releaseNext; split <;> simp
@[simp] theorem releaseNext_monitor (s : State) : (releaseNext s).monitor = s.monitor := by unfold releaseNext; split <;> simp
@[simp] theorem releaseNext_lanes (s : State) : (releaseNext s).lanes = s.lanes := by unfold releaseNext; split <;> simp
@[simp] theorem releaseNext_closing (s : State) : (releaseNext s).closing = s.closing := by unfold releaseNext; split <;> simp
@[simp] theorem releaseNext_frame (s : State) : (releaseNext s).frame = s.frame := by unfold releaseNext; split <;> simp
@[simp] theorem releaseNext_links (s : State) : (releaseNext s).links = s.links := by unfold releaseNext; split <;> simp
@[simp] theorem releaseNext_resets (s : State) : (releaseNext s).resets = s.resets := by unfold releaseNext; split <;> simp
@[simp] theorem enterFault_pending (c : RailCause) (s : State) : (enterFault c s).pending = s.pending := by simp [enterFault]
@[simp] theorem enterFault_pins (c : RailCause) (s : State) : (enterFault c s).pins = s.pins := by simp [enterFault]
@[simp] theorem enterFault_port (c : RailCause) (s : State) : (enterFault c s).port = s.port := by simp [enterFault]
@[simp] theorem enterFault_start (c : RailCause) (s : State) : (enterFault c s).start = s.start := by simp [enterFault]
@[simp] theorem enterFault_setup (c : RailCause) (s : State) : (enterFault c s).setup = s.setup := by simp [enterFault]
@[simp] theorem enterFault_banks (c : RailCause) (s : State) : (enterFault c s).banks = s.banks := by simp [enterFault]
@[simp] theorem enterFault_monitor (c : RailCause) (s : State) : (enterFault c s).monitor = s.monitor := by simp [enterFault]
@[simp] theorem enterFault_tally (c : RailCause) (s : State) : (enterFault c s).tally = s.tally := by simp [enterFault]
@[simp] theorem enterFault_resets (c : RailCause) (s : State) : (enterFault c s).resets = s.resets := by simp [enterFault]
theorem railImmediate_pending {s t : State} (h : railImmediate s = some t) : t.pending = s.pending := by
  unfold railImmediate at h
  split at h <;> (try split_ifs at h) <;> cases h <;> simp
theorem railImmediate_pins {s t : State} (h : railImmediate s = some t) : t.pins = s.pins := by
  unfold railImmediate at h
  split at h <;> (try split_ifs at h) <;> cases h <;> simp
theorem railImmediate_port {s t : State} (h : railImmediate s = some t) : t.port = s.port := by
  unfold railImmediate at h
  split at h <;> (try split_ifs at h) <;> cases h <;> simp
theorem railImmediate_start {s t : State} (h : railImmediate s = some t) : t.start = s.start := by
  unfold railImmediate at h
  split at h <;> (try split_ifs at h) <;> cases h <;> simp
theorem railImmediate_setup {s t : State} (h : railImmediate s = some t) : t.setup = s.setup := by
  unfold railImmediate at h
  split at h <;> (try split_ifs at h) <;> cases h <;> simp
theorem railImmediate_banks {s t : State} (h : railImmediate s = some t) : t.banks = s.banks := by
  unfold railImmediate at h
  split at h <;> (try split_ifs at h) <;> cases h <;> simp
theorem railImmediate_monitor {s t : State} (h : railImmediate s = some t) : t.monitor = s.monitor := by
  unfold railImmediate at h
  split at h <;> (try split_ifs at h) <;> cases h <;> simp
theorem railImmediate_resets {s t : State} (h : railImmediate s = some t) : t.resets = s.resets := by
  unfold railImmediate at h
  split at h <;> (try split_ifs at h) <;> cases h <;> simp
@[simp] theorem railSettle_pending (n : Nat) (s : State) : (railSettle n s).pending = s.pending := by
  induction n generalizing s with
  | zero => rfl
  | succ n ih =>
    simp only [railSettle]
    split
    · next t h => rw [ih, railImmediate_pending h]
    · rfl
@[simp] theorem railSettle_pins (n : Nat) (s : State) : (railSettle n s).pins = s.pins := by
  induction n generalizing s with
  | zero => rfl
  | succ n ih =>
    simp only [railSettle]
    split
    · next t h => rw [ih, railImmediate_pins h]
    · rfl
@[simp] theorem railSettle_port (n : Nat) (s : State) : (railSettle n s).port = s.port := by
  induction n generalizing s with
  | zero => rfl
  | succ n ih =>
    simp only [railSettle]
    split
    · next t h => rw [ih, railImmediate_port h]
    · rfl
@[simp] theorem railSettle_start (n : Nat) (s : State) : (railSettle n s).start = s.start := by
  induction n generalizing s with
  | zero => rfl
  | succ n ih =>
    simp only [railSettle]
    split
    · next t h => rw [ih, railImmediate_start h]
    · rfl
@[simp] theorem railSettle_setup (n : Nat) (s : State) : (railSettle n s).setup = s.setup := by
  induction n generalizing s with
  | zero => rfl
  | succ n ih =>
    simp only [railSettle]
    split
    · next t h => rw [ih, railImmediate_setup h]
    · rfl
@[simp] theorem railSettle_banks (n : Nat) (s : State) : (railSettle n s).banks = s.banks := by
  induction n generalizing s with
  | zero => rfl
  | succ n ih =>
    simp only [railSettle]
    split
    · next t h => rw [ih, railImmediate_banks h]
    · rfl
@[simp] theorem railSettle_monitor (n : Nat) (s : State) : (railSettle n s).monitor = s.monitor := by
  induction n generalizing s with
  | zero => rfl
  | succ n ih =>
    simp only [railSettle]
    split
    · next t h => rw [ih, railImmediate_monitor h]
    · rfl
@[simp] theorem railSettle_resets (n : Nat) (s : State) : (railSettle n s).resets = s.resets := by
  induction n generalizing s with
  | zero => rfl
  | succ n ih =>
    simp only [railSettle]
    split
    · next t h => rw [ih, railImmediate_resets h]
    · rfl
@[simp] theorem settleRails_pending (s : State) : (settleRails s).pending = s.pending := railSettle_pending _ s
@[simp] theorem settleRails_pins (s : State) : (settleRails s).pins = s.pins := railSettle_pins _ s
@[simp] theorem settleRails_port (s : State) : (settleRails s).port = s.port := railSettle_port _ s
@[simp] theorem settleRails_start (s : State) : (settleRails s).start = s.start := railSettle_start _ s
@[simp] theorem settleRails_setup (s : State) : (settleRails s).setup = s.setup := railSettle_setup _ s
@[simp] theorem settleRails_banks (s : State) : (settleRails s).banks = s.banks := railSettle_banks _ s
@[simp] theorem settleRails_monitor (s : State) : (settleRails s).monitor = s.monitor := railSettle_monitor _ s
@[simp] theorem settleRails_resets (s : State) : (settleRails s).resets = s.resets := railSettle_resets _ s
@[simp] theorem noteLanes_pending (s : State) : (noteLanes s).pending = s.pending := by simp [noteLanes]
@[simp] theorem noteLanes_pins (s : State) : (noteLanes s).pins = s.pins := by simp [noteLanes]
@[simp] theorem noteLanes_port (s : State) : (noteLanes s).port = s.port := by simp [noteLanes]
@[simp] theorem noteLanes_start (s : State) : (noteLanes s).start = s.start := by simp [noteLanes]
@[simp] theorem noteLanes_setup (s : State) : (noteLanes s).setup = s.setup := by simp [noteLanes]
@[simp] theorem noteLanes_banks (s : State) : (noteLanes s).banks = s.banks := by simp [noteLanes]
@[simp] theorem noteLanes_monitor (s : State) : (noteLanes s).monitor = s.monitor := by simp [noteLanes]
@[simp] theorem noteLanes_resets (s : State) : (noteLanes s).resets = s.resets := by simp [noteLanes]
@[simp] theorem noteTraining_pending (s : State) : (noteTraining s).pending = s.pending := by simp [noteTraining]
@[simp] theorem noteTraining_pins (s : State) : (noteTraining s).pins = s.pins := by simp [noteTraining]
@[simp] theorem noteTraining_port (s : State) : (noteTraining s).port = s.port := by simp [noteTraining]
@[simp] theorem noteTraining_start (s : State) : (noteTraining s).start = s.start := by simp [noteTraining]
@[simp] theorem noteTraining_setup (s : State) : (noteTraining s).setup = s.setup := by simp [noteTraining]
@[simp] theorem noteTraining_banks (s : State) : (noteTraining s).banks = s.banks := by simp [noteTraining]
@[simp] theorem noteTraining_monitor (s : State) : (noteTraining s).monitor = s.monitor := by simp [noteTraining]
@[simp] theorem noteTraining_resets (s : State) : (noteTraining s).resets = s.resets := by simp [noteTraining]
@[simp] theorem riseDemand_pending (s : State) : (riseDemand s).pending = s.pending := by unfold riseDemand; split <;> simp
@[simp] theorem riseDemand_pins (s : State) : (riseDemand s).pins = s.pins := by unfold riseDemand; split <;> simp
@[simp] theorem riseDemand_port (s : State) : (riseDemand s).port = s.port := by unfold riseDemand; split <;> simp
@[simp] theorem riseDemand_start (s : State) : (riseDemand s).start = s.start := by unfold riseDemand; split <;> simp
@[simp] theorem riseDemand_setup (s : State) : (riseDemand s).setup = s.setup := by unfold riseDemand; split <;> simp
@[simp] theorem riseDemand_banks (s : State) : (riseDemand s).banks = s.banks := by unfold riseDemand; split <;> simp
@[simp] theorem riseDemand_monitor (s : State) : (riseDemand s).monitor = s.monitor := by unfold riseDemand; split <;> simp
@[simp] theorem riseDemand_resets (s : State) : (riseDemand s).resets = s.resets := by unfold riseDemand; split <;> simp
@[simp] theorem releaseIntake_pending (i : Fin 64) (seen : Byte) (s : State) : (releaseIntake i seen s).pending = s.pending := by unfold releaseIntake; split <;> simp
@[simp] theorem releaseIntake_dram (i : Fin 64) (seen : Byte) (s : State) : (releaseIntake i seen s).dram = s.dram := by unfold releaseIntake; split <;> simp
@[simp] theorem releaseIntake_pins (i : Fin 64) (seen : Byte) (s : State) : (releaseIntake i seen s).pins = s.pins := by unfold releaseIntake; split <;> simp
@[simp] theorem releaseIntake_port (i : Fin 64) (seen : Byte) (s : State) : (releaseIntake i seen s).port = s.port := by unfold releaseIntake; split <;> simp
@[simp] theorem releaseIntake_notice (i : Fin 64) (seen : Byte) (s : State) : (releaseIntake i seen s).notice = s.notice := by unfold releaseIntake; split <;> simp
@[simp] theorem releaseIntake_start (i : Fin 64) (seen : Byte) (s : State) : (releaseIntake i seen s).start = s.start := by unfold releaseIntake; split <;> simp
@[simp] theorem releaseIntake_setup (i : Fin 64) (seen : Byte) (s : State) : (releaseIntake i seen s).setup = s.setup := by unfold releaseIntake; split <;> simp
@[simp] theorem releaseIntake_banks (i : Fin 64) (seen : Byte) (s : State) : (releaseIntake i seen s).banks = s.banks := by unfold releaseIntake; split <;> simp
@[simp] theorem releaseIntake_monitor (i : Fin 64) (seen : Byte) (s : State) : (releaseIntake i seen s).monitor = s.monitor := by unfold releaseIntake; split <;> simp
@[simp] theorem releaseIntake_admission (i : Fin 64) (seen : Byte) (s : State) : (releaseIntake i seen s).admission = s.admission := by unfold releaseIntake; split <;> simp
@[simp] theorem releaseIntake_lanes (i : Fin 64) (seen : Byte) (s : State) : (releaseIntake i seen s).lanes = s.lanes := by unfold releaseIntake; split <;> simp
@[simp] theorem releaseIntake_closing (i : Fin 64) (seen : Byte) (s : State) : (releaseIntake i seen s).closing = s.closing := by unfold releaseIntake; split <;> simp
@[simp] theorem releaseIntake_frame (i : Fin 64) (seen : Byte) (s : State) : (releaseIntake i seen s).frame = s.frame := by unfold releaseIntake; split <;> simp
@[simp] theorem releaseIntake_links (i : Fin 64) (seen : Byte) (s : State) : (releaseIntake i seen s).links = s.links := by unfold releaseIntake; split <;> simp
@[simp] theorem releaseIntake_rails (i : Fin 64) (seen : Byte) (s : State) : (releaseIntake i seen s).rails = s.rails := by unfold releaseIntake; split <;> simp
@[simp] theorem releaseIntake_tally (i : Fin 64) (seen : Byte) (s : State) : (releaseIntake i seen s).tally = s.tally := by unfold releaseIntake; split <;> simp
@[simp] theorem releaseIntake_resets (i : Fin 64) (seen : Byte) (s : State) : (releaseIntake i seen s).resets = s.resets := by unfold releaseIntake; split <;> simp
@[simp] theorem countFinish_pending (s : State) : (countFinish s).pending = s.pending := rfl
@[simp] theorem countFinish_pins (s : State) : (countFinish s).pins = s.pins := rfl
@[simp] theorem countFinish_port (s : State) : (countFinish s).port = s.port := rfl
@[simp] theorem countFinish_start (s : State) : (countFinish s).start = s.start := rfl
@[simp] theorem countFinish_setup (s : State) : (countFinish s).setup = s.setup := rfl
@[simp] theorem countFinish_banks (s : State) : (countFinish s).banks = s.banks := rfl
@[simp] theorem countFinish_monitor (s : State) : (countFinish s).monitor = s.monitor := rfl
@[simp] theorem countFinish_admission (s : State) : (countFinish s).admission = s.admission := rfl
@[simp] theorem countFinish_lanes (s : State) : (countFinish s).lanes = s.lanes := rfl
@[simp] theorem countFinish_closing (s : State) : (countFinish s).closing = s.closing := rfl
@[simp] theorem countFinish_frame (s : State) : (countFinish s).frame = s.frame := rfl
@[simp] theorem countFinish_links (s : State) : (countFinish s).links = s.links := rfl
@[simp] theorem countFinish_rails (s : State) : (countFinish s).rails = s.rails := rfl
@[simp] theorem countFinish_tally (s : State) : (countFinish s).tally = s.tally := rfl
@[simp] theorem countFinish_resets (s : State) : (countFinish s).resets = s.resets := rfl
@[simp] theorem settleHalt_pending (s : State) : (settleHalt s).pending = s.pending := by unfold settleHalt; split <;> simp
@[simp] theorem settleHalt_dram (s : State) : (settleHalt s).dram = s.dram := by unfold settleHalt; split <;> simp
@[simp] theorem settleHalt_pins (s : State) : (settleHalt s).pins = s.pins := by unfold settleHalt; split <;> simp
@[simp] theorem settleHalt_start (s : State) : (settleHalt s).start = s.start := by unfold settleHalt; split <;> simp
@[simp] theorem settleHalt_setup (s : State) : (settleHalt s).setup = s.setup := by unfold settleHalt; split <;> simp
@[simp] theorem settleHalt_banks (s : State) : (settleHalt s).banks = s.banks := by unfold settleHalt; split <;> simp
@[simp] theorem settleHalt_monitor (s : State) : (settleHalt s).monitor = s.monitor := by unfold settleHalt; split <;> simp
@[simp] theorem settleHalt_admission (s : State) : (settleHalt s).admission = s.admission := by unfold settleHalt; split <;> simp
@[simp] theorem settleHalt_lanes (s : State) : (settleHalt s).lanes = s.lanes := by unfold settleHalt; split <;> simp
@[simp] theorem settleHalt_closing (s : State) : (settleHalt s).closing = s.closing := by unfold settleHalt; split <;> simp
@[simp] theorem settleHalt_frame (s : State) : (settleHalt s).frame = s.frame := by unfold settleHalt; split <;> simp
@[simp] theorem settleHalt_links (s : State) : (settleHalt s).links = s.links := by unfold settleHalt; split <;> simp
@[simp] theorem settleHalt_rails (s : State) : (settleHalt s).rails = s.rails := by unfold settleHalt; split <;> simp
@[simp] theorem settleHalt_tally (s : State) : (settleHalt s).tally = s.tally := by unfold settleHalt; split <;> simp
@[simp] theorem settleHalt_resets (s : State) : (settleHalt s).resets = s.resets := by unfold settleHalt; split <;> simp
@[simp] theorem returnLane_pending (n : Fin 32) (s : State) : (returnLane n s).pending = s.pending := by simp [returnLane]
@[simp] theorem returnLane_pins (n : Fin 32) (s : State) : (returnLane n s).pins = s.pins := by simp [returnLane]
@[simp] theorem returnLane_start (n : Fin 32) (s : State) : (returnLane n s).start = s.start := by simp [returnLane]
@[simp] theorem returnLane_setup (n : Fin 32) (s : State) : (returnLane n s).setup = s.setup := by simp [returnLane]
@[simp] theorem returnLane_monitor (n : Fin 32) (s : State) : (returnLane n s).monitor = s.monitor := by simp [returnLane]
@[simp] theorem returnLane_resets (n : Fin 32) (s : State) : (returnLane n s).resets = s.resets := by simp [returnLane]
@[simp] theorem performFinish_pending (f : Finish) (s : State) : (performFinish f s).pending = s.pending := by unfold performFinish; dsimp only; split <;> simp
@[simp] theorem performFinish_pins (f : Finish) (s : State) : (performFinish f s).pins = s.pins := by unfold performFinish; dsimp only; split <;> simp
@[simp] theorem performFinish_start (f : Finish) (s : State) : (performFinish f s).start = s.start := by unfold performFinish; dsimp only; split <;> simp
@[simp] theorem performFinish_setup (f : Finish) (s : State) : (performFinish f s).setup = s.setup := by unfold performFinish; dsimp only; split <;> simp
@[simp] theorem performFinish_monitor (f : Finish) (s : State) : (performFinish f s).monitor = s.monitor := by unfold performFinish; dsimp only; split <;> simp
@[simp] theorem performFinish_resets (f : Finish) (s : State) : (performFinish f s).resets = s.resets := by unfold performFinish; dsimp only; split <;> simp
@[simp] theorem handRow_pending (cs : List DriveCode) (s : State) : (handRow cs s).pending = s.pending := rfl
@[simp] theorem handRow_dram (cs : List DriveCode) (s : State) : (handRow cs s).dram = s.dram := rfl
@[simp] theorem handRow_pins (cs : List DriveCode) (s : State) : (handRow cs s).pins = s.pins := rfl
@[simp] theorem handRow_port (cs : List DriveCode) (s : State) : (handRow cs s).port = s.port := rfl
@[simp] theorem handRow_notice (cs : List DriveCode) (s : State) : (handRow cs s).notice = s.notice := rfl
@[simp] theorem handRow_start (cs : List DriveCode) (s : State) : (handRow cs s).start = s.start := rfl
@[simp] theorem handRow_setup (cs : List DriveCode) (s : State) : (handRow cs s).setup = s.setup := rfl
@[simp] theorem handRow_banks (cs : List DriveCode) (s : State) : (handRow cs s).banks = s.banks := rfl
@[simp] theorem handRow_monitor (cs : List DriveCode) (s : State) : (handRow cs s).monitor = s.monitor := rfl
@[simp] theorem handRow_board (cs : List DriveCode) (s : State) : (handRow cs s).board = s.board := rfl
@[simp] theorem handRow_admission (cs : List DriveCode) (s : State) : (handRow cs s).admission = s.admission := rfl
@[simp] theorem handRow_lanes (cs : List DriveCode) (s : State) : (handRow cs s).lanes = s.lanes := rfl
@[simp] theorem handRow_closing (cs : List DriveCode) (s : State) : (handRow cs s).closing = s.closing := rfl
@[simp] theorem handRow_rails (cs : List DriveCode) (s : State) : (handRow cs s).rails = s.rails := rfl
@[simp] theorem handRow_tally (cs : List DriveCode) (s : State) : (handRow cs s).tally = s.tally := rfl
@[simp] theorem handRow_resets (cs : List DriveCode) (s : State) : (handRow cs s).resets = s.resets := rfl
@[simp] theorem streamRow_pending (s : State) : (streamRow s).pending = s.pending := by simp [streamRow]
@[simp] theorem streamRow_dram (s : State) : (streamRow s).dram = s.dram := by simp [streamRow]
@[simp] theorem streamRow_pins (s : State) : (streamRow s).pins = s.pins := by simp [streamRow]
@[simp] theorem streamRow_port (s : State) : (streamRow s).port = s.port := by simp [streamRow]
@[simp] theorem streamRow_notice (s : State) : (streamRow s).notice = s.notice := by simp [streamRow]
@[simp] theorem streamRow_start (s : State) : (streamRow s).start = s.start := by simp [streamRow]
@[simp] theorem streamRow_setup (s : State) : (streamRow s).setup = s.setup := by simp [streamRow]
@[simp] theorem streamRow_banks (s : State) : (streamRow s).banks = s.banks := by simp [streamRow]
@[simp] theorem streamRow_monitor (s : State) : (streamRow s).monitor = s.monitor := by simp [streamRow]
@[simp] theorem streamRow_board (s : State) : (streamRow s).board = s.board := by simp [streamRow]
@[simp] theorem streamRow_admission (s : State) : (streamRow s).admission = s.admission := by simp [streamRow]
@[simp] theorem streamRow_lanes (s : State) : (streamRow s).lanes = s.lanes := by simp [streamRow]
@[simp] theorem streamRow_closing (s : State) : (streamRow s).closing = s.closing := by simp [streamRow]
@[simp] theorem streamRow_rails (s : State) : (streamRow s).rails = s.rails := by simp [streamRow]
@[simp] theorem streamRow_tally (s : State) : (streamRow s).tally = s.tally := by simp [streamRow]
@[simp] theorem streamRow_resets (s : State) : (streamRow s).resets = s.resets := by simp [streamRow]
@[simp] theorem streamTick_pending (s : State) : (streamTick s).pending = s.pending := by unfold streamTick; dsimp only; split <;> [(split <;> simp); rfl]
@[simp] theorem streamTick_dram (s : State) : (streamTick s).dram = s.dram := by unfold streamTick; dsimp only; split <;> [(split <;> simp); rfl]
@[simp] theorem streamTick_pins (s : State) : (streamTick s).pins = s.pins := by unfold streamTick; dsimp only; split <;> [(split <;> simp); rfl]
@[simp] theorem streamTick_port (s : State) : (streamTick s).port = s.port := by unfold streamTick; dsimp only; split <;> [(split <;> simp); rfl]
@[simp] theorem streamTick_notice (s : State) : (streamTick s).notice = s.notice := by unfold streamTick; dsimp only; split <;> [(split <;> simp); rfl]
@[simp] theorem streamTick_start (s : State) : (streamTick s).start = s.start := by unfold streamTick; dsimp only; split <;> [(split <;> simp); rfl]
@[simp] theorem streamTick_setup (s : State) : (streamTick s).setup = s.setup := by unfold streamTick; dsimp only; split <;> [(split <;> simp); rfl]
@[simp] theorem streamTick_banks (s : State) : (streamTick s).banks = s.banks := by unfold streamTick; dsimp only; split <;> [(split <;> simp); rfl]
@[simp] theorem streamTick_monitor (s : State) : (streamTick s).monitor = s.monitor := by unfold streamTick; dsimp only; split <;> [(split <;> simp); rfl]
@[simp] theorem streamTick_board (s : State) : (streamTick s).board = s.board := by unfold streamTick; dsimp only; split <;> [(split <;> simp); rfl]
@[simp] theorem streamTick_admission (s : State) : (streamTick s).admission = s.admission := by unfold streamTick; dsimp only; split <;> [(split <;> simp); rfl]
@[simp] theorem streamTick_lanes (s : State) : (streamTick s).lanes = s.lanes := by unfold streamTick; dsimp only; split <;> [(split <;> simp); rfl]
@[simp] theorem streamTick_closing (s : State) : (streamTick s).closing = s.closing := by unfold streamTick; dsimp only; split <;> [(split <;> simp); rfl]
@[simp] theorem streamTick_rails (s : State) : (streamTick s).rails = s.rails := by unfold streamTick; dsimp only; split <;> [(split <;> simp); rfl]
@[simp] theorem streamTick_tally (s : State) : (streamTick s).tally = s.tally := by unfold streamTick; dsimp only; split <;> [(split <;> simp); rfl]
@[simp] theorem streamTick_resets (s : State) : (streamTick s).resets = s.resets := by unfold streamTick; dsimp only; split <;> [(split <;> simp); rfl]
@[simp] theorem streamRows_pending (n : Nat) (s : State) : (streamRows n s).pending = s.pending := by
  induction n generalizing s with
  | zero => rfl
  | succ n ih => rw [streamRows, ih, streamRow_pending]
@[simp] theorem streamRows_dram (n : Nat) (s : State) : (streamRows n s).dram = s.dram := by
  induction n generalizing s with
  | zero => rfl
  | succ n ih => rw [streamRows, ih, streamRow_dram]
@[simp] theorem streamRows_pins (n : Nat) (s : State) : (streamRows n s).pins = s.pins := by
  induction n generalizing s with
  | zero => rfl
  | succ n ih => rw [streamRows, ih, streamRow_pins]
@[simp] theorem streamRows_port (n : Nat) (s : State) : (streamRows n s).port = s.port := by
  induction n generalizing s with
  | zero => rfl
  | succ n ih => rw [streamRows, ih, streamRow_port]
@[simp] theorem streamRows_notice (n : Nat) (s : State) : (streamRows n s).notice = s.notice := by
  induction n generalizing s with
  | zero => rfl
  | succ n ih => rw [streamRows, ih, streamRow_notice]
@[simp] theorem streamRows_start (n : Nat) (s : State) : (streamRows n s).start = s.start := by
  induction n generalizing s with
  | zero => rfl
  | succ n ih => rw [streamRows, ih, streamRow_start]
@[simp] theorem streamRows_setup (n : Nat) (s : State) : (streamRows n s).setup = s.setup := by
  induction n generalizing s with
  | zero => rfl
  | succ n ih => rw [streamRows, ih, streamRow_setup]
@[simp] theorem streamRows_banks (n : Nat) (s : State) : (streamRows n s).banks = s.banks := by
  induction n generalizing s with
  | zero => rfl
  | succ n ih => rw [streamRows, ih, streamRow_banks]
@[simp] theorem streamRows_monitor (n : Nat) (s : State) : (streamRows n s).monitor = s.monitor := by
  induction n generalizing s with
  | zero => rfl
  | succ n ih => rw [streamRows, ih, streamRow_monitor]
@[simp] theorem streamRows_board (n : Nat) (s : State) : (streamRows n s).board = s.board := by
  induction n generalizing s with
  | zero => rfl
  | succ n ih => rw [streamRows, ih, streamRow_board]
@[simp] theorem streamRows_admission (n : Nat) (s : State) : (streamRows n s).admission = s.admission := by
  induction n generalizing s with
  | zero => rfl
  | succ n ih => rw [streamRows, ih, streamRow_admission]
@[simp] theorem streamRows_lanes (n : Nat) (s : State) : (streamRows n s).lanes = s.lanes := by
  induction n generalizing s with
  | zero => rfl
  | succ n ih => rw [streamRows, ih, streamRow_lanes]
@[simp] theorem streamRows_closing (n : Nat) (s : State) : (streamRows n s).closing = s.closing := by
  induction n generalizing s with
  | zero => rfl
  | succ n ih => rw [streamRows, ih, streamRow_closing]
@[simp] theorem streamRows_rails (n : Nat) (s : State) : (streamRows n s).rails = s.rails := by
  induction n generalizing s with
  | zero => rfl
  | succ n ih => rw [streamRows, ih, streamRow_rails]
@[simp] theorem streamRows_tally (n : Nat) (s : State) : (streamRows n s).tally = s.tally := by
  induction n generalizing s with
  | zero => rfl
  | succ n ih => rw [streamRows, ih, streamRow_tally]
@[simp] theorem streamRows_resets (n : Nat) (s : State) : (streamRows n s).resets = s.resets := by
  induction n generalizing s with
  | zero => rfl
  | succ n ih => rw [streamRows, ih, streamRow_resets]
@[simp] theorem streamRest_pending (s : State) : (streamRest s).pending = s.pending := by unfold streamRest; split <;> simp
@[simp] theorem streamRest_dram (s : State) : (streamRest s).dram = s.dram := by unfold streamRest; split <;> simp
@[simp] theorem streamRest_pins (s : State) : (streamRest s).pins = s.pins := by unfold streamRest; split <;> simp
@[simp] theorem streamRest_port (s : State) : (streamRest s).port = s.port := by unfold streamRest; split <;> simp
@[simp] theorem streamRest_notice (s : State) : (streamRest s).notice = s.notice := by unfold streamRest; split <;> simp
@[simp] theorem streamRest_start (s : State) : (streamRest s).start = s.start := by unfold streamRest; split <;> simp
@[simp] theorem streamRest_setup (s : State) : (streamRest s).setup = s.setup := by unfold streamRest; split <;> simp
@[simp] theorem streamRest_banks (s : State) : (streamRest s).banks = s.banks := by unfold streamRest; split <;> simp
@[simp] theorem streamRest_monitor (s : State) : (streamRest s).monitor = s.monitor := by unfold streamRest; split <;> simp
@[simp] theorem streamRest_board (s : State) : (streamRest s).board = s.board := by unfold streamRest; split <;> simp
@[simp] theorem streamRest_admission (s : State) : (streamRest s).admission = s.admission := by unfold streamRest; split <;> simp
@[simp] theorem streamRest_lanes (s : State) : (streamRest s).lanes = s.lanes := by unfold streamRest; split <;> simp
@[simp] theorem streamRest_closing (s : State) : (streamRest s).closing = s.closing := by unfold streamRest; split <;> simp
@[simp] theorem streamRest_rails (s : State) : (streamRest s).rails = s.rails := by unfold streamRest; split <;> simp
@[simp] theorem streamRest_tally (s : State) : (streamRest s).tally = s.tally := by unfold streamRest; split <;> simp
@[simp] theorem streamRest_resets (s : State) : (streamRest s).resets = s.resets := by unfold streamRest; split <;> simp
@[simp] theorem handSegment_pending (k : Fin 4) (s : State) : (handSegment k s).pending = s.pending := by simp [handSegment]
@[simp] theorem handSegment_dram (k : Fin 4) (s : State) : (handSegment k s).dram = s.dram := by simp [handSegment]
@[simp] theorem handSegment_pins (k : Fin 4) (s : State) : (handSegment k s).pins = s.pins := by simp [handSegment]
@[simp] theorem handSegment_port (k : Fin 4) (s : State) : (handSegment k s).port = s.port := by simp [handSegment]
@[simp] theorem handSegment_notice (k : Fin 4) (s : State) : (handSegment k s).notice = s.notice := by simp [handSegment]
@[simp] theorem handSegment_start (k : Fin 4) (s : State) : (handSegment k s).start = s.start := by simp [handSegment]
@[simp] theorem handSegment_setup (k : Fin 4) (s : State) : (handSegment k s).setup = s.setup := by simp [handSegment]
@[simp] theorem handSegment_banks (k : Fin 4) (s : State) : (handSegment k s).banks = s.banks := by simp [handSegment]
@[simp] theorem handSegment_monitor (k : Fin 4) (s : State) : (handSegment k s).monitor = s.monitor := by simp [handSegment]
@[simp] theorem handSegment_admission (k : Fin 4) (s : State) : (handSegment k s).admission = s.admission := by simp [handSegment]
@[simp] theorem handSegment_lanes (k : Fin 4) (s : State) : (handSegment k s).lanes = s.lanes := by simp [handSegment]
@[simp] theorem handSegment_closing (k : Fin 4) (s : State) : (handSegment k s).closing = s.closing := by simp [handSegment]
@[simp] theorem handSegment_frame (k : Fin 4) (s : State) : (handSegment k s).frame = s.frame := by simp [handSegment]
@[simp] theorem handSegment_links (k : Fin 4) (s : State) : (handSegment k s).links = s.links := by simp [handSegment]
@[simp] theorem handSegment_rails (k : Fin 4) (s : State) : (handSegment k s).rails = s.rails := by simp [handSegment]
@[simp] theorem handSegment_tally (k : Fin 4) (s : State) : (handSegment k s).tally = s.tally := by simp [handSegment]
@[simp] theorem handSegment_resets (k : Fin 4) (s : State) : (handSegment k s).resets = s.resets := by simp [handSegment]
@[simp] theorem faultLink_pending (k : Fin 4) (s : State) : (faultLink k s).pending = s.pending := by simp [faultLink]
@[simp] theorem faultLink_pins (k : Fin 4) (s : State) : (faultLink k s).pins = s.pins := by simp [faultLink]
@[simp] theorem faultLink_port (k : Fin 4) (s : State) : (faultLink k s).port = s.port := by simp [faultLink]
@[simp] theorem faultLink_start (k : Fin 4) (s : State) : (faultLink k s).start = s.start := by simp [faultLink]
@[simp] theorem faultLink_setup (k : Fin 4) (s : State) : (faultLink k s).setup = s.setup := by simp [faultLink]
@[simp] theorem faultLink_banks (k : Fin 4) (s : State) : (faultLink k s).banks = s.banks := by simp [faultLink]
@[simp] theorem faultLink_monitor (k : Fin 4) (s : State) : (faultLink k s).monitor = s.monitor := by simp [faultLink]
@[simp] theorem faultLink_frame (k : Fin 4) (s : State) : (faultLink k s).frame = s.frame := by simp [faultLink]
@[simp] theorem faultLink_rails (k : Fin 4) (s : State) : (faultLink k s).rails = s.rails := by simp [faultLink]
@[simp] theorem faultLink_tally (k : Fin 4) (s : State) : (faultLink k s).tally = s.tally := by simp [faultLink]
@[simp] theorem faultLink_resets (k : Fin 4) (s : State) : (faultLink k s).resets = s.resets := by simp [faultLink]
@[simp] theorem checkedMismatch_pending (k : Fin 4) (s : State) : (checkedMismatch k s).pending = s.pending := by unfold checkedMismatch; dsimp only; split <;> simp
@[simp] theorem checkedMismatch_pins (k : Fin 4) (s : State) : (checkedMismatch k s).pins = s.pins := by unfold checkedMismatch; dsimp only; split <;> simp
@[simp] theorem checkedMismatch_port (k : Fin 4) (s : State) : (checkedMismatch k s).port = s.port := by unfold checkedMismatch; dsimp only; split <;> simp
@[simp] theorem checkedMismatch_start (k : Fin 4) (s : State) : (checkedMismatch k s).start = s.start := by unfold checkedMismatch; dsimp only; split <;> simp
@[simp] theorem checkedMismatch_setup (k : Fin 4) (s : State) : (checkedMismatch k s).setup = s.setup := by unfold checkedMismatch; dsimp only; split <;> simp
@[simp] theorem checkedMismatch_banks (k : Fin 4) (s : State) : (checkedMismatch k s).banks = s.banks := by unfold checkedMismatch; dsimp only; split <;> simp
@[simp] theorem checkedMismatch_monitor (k : Fin 4) (s : State) : (checkedMismatch k s).monitor = s.monitor := by unfold checkedMismatch; dsimp only; split <;> simp
@[simp] theorem checkedMismatch_frame (k : Fin 4) (s : State) : (checkedMismatch k s).frame = s.frame := by unfold checkedMismatch; dsimp only; split <;> simp
@[simp] theorem checkedMismatch_rails (k : Fin 4) (s : State) : (checkedMismatch k s).rails = s.rails := by unfold checkedMismatch; dsimp only; split <;> simp
@[simp] theorem checkedMismatch_resets (k : Fin 4) (s : State) : (checkedMismatch k s).resets = s.resets := by unfold checkedMismatch; dsimp only; split <;> simp
@[simp] theorem trainingDone_pending (k : Fin 4) (s : State) : (trainingDone k s).pending = s.pending := by simp [trainingDone]
@[simp] theorem trainingDone_dram (k : Fin 4) (s : State) : (trainingDone k s).dram = s.dram := by simp [trainingDone]
@[simp] theorem trainingDone_pins (k : Fin 4) (s : State) : (trainingDone k s).pins = s.pins := by simp [trainingDone]
@[simp] theorem trainingDone_port (k : Fin 4) (s : State) : (trainingDone k s).port = s.port := by simp [trainingDone]
@[simp] theorem trainingDone_notice (k : Fin 4) (s : State) : (trainingDone k s).notice = s.notice := by simp [trainingDone]
@[simp] theorem trainingDone_start (k : Fin 4) (s : State) : (trainingDone k s).start = s.start := by simp [trainingDone]
@[simp] theorem trainingDone_setup (k : Fin 4) (s : State) : (trainingDone k s).setup = s.setup := by simp [trainingDone]
@[simp] theorem trainingDone_banks (k : Fin 4) (s : State) : (trainingDone k s).banks = s.banks := by simp [trainingDone]
@[simp] theorem trainingDone_monitor (k : Fin 4) (s : State) : (trainingDone k s).monitor = s.monitor := by simp [trainingDone]
@[simp] theorem trainingDone_admission (k : Fin 4) (s : State) : (trainingDone k s).admission = s.admission := by simp [trainingDone]
@[simp] theorem trainingDone_lanes (k : Fin 4) (s : State) : (trainingDone k s).lanes = s.lanes := by simp [trainingDone]
@[simp] theorem trainingDone_closing (k : Fin 4) (s : State) : (trainingDone k s).closing = s.closing := by simp [trainingDone]
@[simp] theorem trainingDone_frame (k : Fin 4) (s : State) : (trainingDone k s).frame = s.frame := by simp [trainingDone]
@[simp] theorem trainingDone_rails (k : Fin 4) (s : State) : (trainingDone k s).rails = s.rails := by simp [trainingDone]
@[simp] theorem trainingDone_tally (k : Fin 4) (s : State) : (trainingDone k s).tally = s.tally := by simp [trainingDone]
@[simp] theorem trainingDone_resets (k : Fin 4) (s : State) : (trainingDone k s).resets = s.resets := by simp [trainingDone]
@[simp] theorem trainingFrame_pending (k : Fin 4) (b : Bool) (s : State) : (trainingFrame k b s).pending = s.pending := by unfold trainingFrame; dsimp only; split_ifs <;> simp
@[simp] theorem trainingFrame_pins (k : Fin 4) (b : Bool) (s : State) : (trainingFrame k b s).pins = s.pins := by unfold trainingFrame; dsimp only; split_ifs <;> simp
@[simp] theorem trainingFrame_port (k : Fin 4) (b : Bool) (s : State) : (trainingFrame k b s).port = s.port := by unfold trainingFrame; dsimp only; split_ifs <;> simp
@[simp] theorem trainingFrame_start (k : Fin 4) (b : Bool) (s : State) : (trainingFrame k b s).start = s.start := by unfold trainingFrame; dsimp only; split_ifs <;> simp
@[simp] theorem trainingFrame_setup (k : Fin 4) (b : Bool) (s : State) : (trainingFrame k b s).setup = s.setup := by unfold trainingFrame; dsimp only; split_ifs <;> simp
@[simp] theorem trainingFrame_banks (k : Fin 4) (b : Bool) (s : State) : (trainingFrame k b s).banks = s.banks := by unfold trainingFrame; dsimp only; split_ifs <;> simp
@[simp] theorem trainingFrame_monitor (k : Fin 4) (b : Bool) (s : State) : (trainingFrame k b s).monitor = s.monitor := by unfold trainingFrame; dsimp only; split_ifs <;> simp
@[simp] theorem trainingFrame_frame (k : Fin 4) (b : Bool) (s : State) : (trainingFrame k b s).frame = s.frame := by unfold trainingFrame; dsimp only; split_ifs <;> simp
@[simp] theorem trainingFrame_rails (k : Fin 4) (b : Bool) (s : State) : (trainingFrame k b s).rails = s.rails := by unfold trainingFrame; dsimp only; split_ifs <;> simp
@[simp] theorem trainingFrame_tally (k : Fin 4) (b : Bool) (s : State) : (trainingFrame k b s).tally = s.tally := by unfold trainingFrame; dsimp only; split_ifs <;> simp
@[simp] theorem trainingFrame_resets (k : Fin 4) (b : Bool) (s : State) : (trainingFrame k b s).resets = s.resets := by unfold trainingFrame; dsimp only; split_ifs <;> simp
@[simp] theorem settleTraining_pending (b : Bool) (s : State) : (settleTraining b s).pending = s.pending := by unfold settleTraining; split <;> simp
@[simp] theorem settleTraining_pins (b : Bool) (s : State) : (settleTraining b s).pins = s.pins := by unfold settleTraining; split <;> simp
@[simp] theorem settleTraining_port (b : Bool) (s : State) : (settleTraining b s).port = s.port := by unfold settleTraining; split <;> simp
@[simp] theorem settleTraining_start (b : Bool) (s : State) : (settleTraining b s).start = s.start := by unfold settleTraining; split <;> simp
@[simp] theorem settleTraining_setup (b : Bool) (s : State) : (settleTraining b s).setup = s.setup := by unfold settleTraining; split <;> simp
@[simp] theorem settleTraining_banks (b : Bool) (s : State) : (settleTraining b s).banks = s.banks := by unfold settleTraining; split <;> simp
@[simp] theorem settleTraining_monitor (b : Bool) (s : State) : (settleTraining b s).monitor = s.monitor := by unfold settleTraining; split <;> simp
@[simp] theorem settleTraining_resets (b : Bool) (s : State) : (settleTraining b s).resets = s.resets := by unfold settleTraining; split <;> simp
@[simp] theorem judgeFrame_pending (k : Fin 4) (b : Bool) (s : State) : (judgeFrame k b s).pending = s.pending := by unfold judgeFrame; dsimp only; split <;> [simp; (split <;> simp); simp]
@[simp] theorem judgeFrame_pins (k : Fin 4) (b : Bool) (s : State) : (judgeFrame k b s).pins = s.pins := by unfold judgeFrame; dsimp only; split <;> [simp; (split <;> simp); simp]
@[simp] theorem judgeFrame_port (k : Fin 4) (b : Bool) (s : State) : (judgeFrame k b s).port = s.port := by unfold judgeFrame; dsimp only; split <;> [simp; (split <;> simp); simp]
@[simp] theorem judgeFrame_start (k : Fin 4) (b : Bool) (s : State) : (judgeFrame k b s).start = s.start := by unfold judgeFrame; dsimp only; split <;> [simp; (split <;> simp); simp]
@[simp] theorem judgeFrame_setup (k : Fin 4) (b : Bool) (s : State) : (judgeFrame k b s).setup = s.setup := by unfold judgeFrame; dsimp only; split <;> [simp; (split <;> simp); simp]
@[simp] theorem judgeFrame_banks (k : Fin 4) (b : Bool) (s : State) : (judgeFrame k b s).banks = s.banks := by unfold judgeFrame; dsimp only; split <;> [simp; (split <;> simp); simp]
@[simp] theorem judgeFrame_monitor (k : Fin 4) (b : Bool) (s : State) : (judgeFrame k b s).monitor = s.monitor := by unfold judgeFrame; dsimp only; split <;> [simp; (split <;> simp); simp]
@[simp] theorem judgeFrame_frame (k : Fin 4) (b : Bool) (s : State) : (judgeFrame k b s).frame = s.frame := by unfold judgeFrame; dsimp only; split <;> [simp; (split <;> simp); simp]
@[simp] theorem judgeFrame_rails (k : Fin 4) (b : Bool) (s : State) : (judgeFrame k b s).rails = s.rails := by unfold judgeFrame; dsimp only; split <;> [simp; (split <;> simp); simp]
@[simp] theorem judgeFrame_resets (k : Fin 4) (b : Bool) (s : State) : (judgeFrame k b s).resets = s.resets := by unfold judgeFrame; dsimp only; split <;> [simp; (split <;> simp); simp]
@[simp] theorem advanceWindow_pending (k : Fin 4) (s : State) : (advanceWindow k s).pending = s.pending := by unfold advanceWindow; dsimp only; split_ifs <;> simp
@[simp] theorem advanceWindow_dram (k : Fin 4) (s : State) : (advanceWindow k s).dram = s.dram := by unfold advanceWindow; dsimp only; split_ifs <;> simp
@[simp] theorem advanceWindow_pins (k : Fin 4) (s : State) : (advanceWindow k s).pins = s.pins := by unfold advanceWindow; dsimp only; split_ifs <;> simp
@[simp] theorem advanceWindow_port (k : Fin 4) (s : State) : (advanceWindow k s).port = s.port := by unfold advanceWindow; dsimp only; split_ifs <;> simp
@[simp] theorem advanceWindow_notice (k : Fin 4) (s : State) : (advanceWindow k s).notice = s.notice := by unfold advanceWindow; dsimp only; split_ifs <;> simp
@[simp] theorem advanceWindow_start (k : Fin 4) (s : State) : (advanceWindow k s).start = s.start := by unfold advanceWindow; dsimp only; split_ifs <;> simp
@[simp] theorem advanceWindow_setup (k : Fin 4) (s : State) : (advanceWindow k s).setup = s.setup := by unfold advanceWindow; dsimp only; split_ifs <;> simp
@[simp] theorem advanceWindow_banks (k : Fin 4) (s : State) : (advanceWindow k s).banks = s.banks := by unfold advanceWindow; dsimp only; split_ifs <;> simp
@[simp] theorem advanceWindow_monitor (k : Fin 4) (s : State) : (advanceWindow k s).monitor = s.monitor := by unfold advanceWindow; dsimp only; split_ifs <;> simp
@[simp] theorem advanceWindow_admission (k : Fin 4) (s : State) : (advanceWindow k s).admission = s.admission := by unfold advanceWindow; dsimp only; split_ifs <;> simp
@[simp] theorem advanceWindow_lanes (k : Fin 4) (s : State) : (advanceWindow k s).lanes = s.lanes := by unfold advanceWindow; dsimp only; split_ifs <;> simp
@[simp] theorem advanceWindow_closing (k : Fin 4) (s : State) : (advanceWindow k s).closing = s.closing := by unfold advanceWindow; dsimp only; split_ifs <;> simp
@[simp] theorem advanceWindow_frame (k : Fin 4) (s : State) : (advanceWindow k s).frame = s.frame := by unfold advanceWindow; dsimp only; split_ifs <;> simp
@[simp] theorem advanceWindow_rails (k : Fin 4) (s : State) : (advanceWindow k s).rails = s.rails := by unfold advanceWindow; dsimp only; split_ifs <;> simp
@[simp] theorem advanceWindow_tally (k : Fin 4) (s : State) : (advanceWindow k s).tally = s.tally := by unfold advanceWindow; dsimp only; split_ifs <;> simp
@[simp] theorem advanceWindow_resets (k : Fin 4) (s : State) : (advanceWindow k s).resets = s.resets := by unfold advanceWindow; dsimp only; split_ifs <;> simp
@[simp] theorem endFrame_pending (k : Fin 4) (s : State) : (endFrame k s).pending = s.pending := by unfold endFrame; split_ifs <;> simp
@[simp] theorem endFrame_pins (k : Fin 4) (s : State) : (endFrame k s).pins = s.pins := by unfold endFrame; split_ifs <;> simp
@[simp] theorem endFrame_port (k : Fin 4) (s : State) : (endFrame k s).port = s.port := by unfold endFrame; split_ifs <;> simp
@[simp] theorem endFrame_start (k : Fin 4) (s : State) : (endFrame k s).start = s.start := by unfold endFrame; split_ifs <;> simp
@[simp] theorem endFrame_setup (k : Fin 4) (s : State) : (endFrame k s).setup = s.setup := by unfold endFrame; split_ifs <;> simp
@[simp] theorem endFrame_banks (k : Fin 4) (s : State) : (endFrame k s).banks = s.banks := by unfold endFrame; split_ifs <;> simp
@[simp] theorem endFrame_monitor (k : Fin 4) (s : State) : (endFrame k s).monitor = s.monitor := by unfold endFrame; split_ifs <;> simp
@[simp] theorem endFrame_frame (k : Fin 4) (s : State) : (endFrame k s).frame = s.frame := by unfold endFrame; split_ifs <;> simp
@[simp] theorem endFrame_rails (k : Fin 4) (s : State) : (endFrame k s).rails = s.rails := by unfold endFrame; split_ifs <;> simp
@[simp] theorem endFrame_resets (k : Fin 4) (s : State) : (endFrame k s).resets = s.resets := by unfold endFrame; split_ifs <;> simp
@[simp] theorem beginFrame_pending (k : Fin 4) (s : State) : (beginFrame k s).pending = s.pending := by unfold beginFrame; dsimp only; split_ifs <;> simp
@[simp] theorem beginFrame_dram (k : Fin 4) (s : State) : (beginFrame k s).dram = s.dram := by unfold beginFrame; dsimp only; split_ifs <;> simp
@[simp] theorem beginFrame_pins (k : Fin 4) (s : State) : (beginFrame k s).pins = s.pins := by unfold beginFrame; dsimp only; split_ifs <;> simp
@[simp] theorem beginFrame_port (k : Fin 4) (s : State) : (beginFrame k s).port = s.port := by unfold beginFrame; dsimp only; split_ifs <;> simp
@[simp] theorem beginFrame_notice (k : Fin 4) (s : State) : (beginFrame k s).notice = s.notice := by unfold beginFrame; dsimp only; split_ifs <;> simp
@[simp] theorem beginFrame_start (k : Fin 4) (s : State) : (beginFrame k s).start = s.start := by unfold beginFrame; dsimp only; split_ifs <;> simp
@[simp] theorem beginFrame_setup (k : Fin 4) (s : State) : (beginFrame k s).setup = s.setup := by unfold beginFrame; dsimp only; split_ifs <;> simp
@[simp] theorem beginFrame_banks (k : Fin 4) (s : State) : (beginFrame k s).banks = s.banks := by unfold beginFrame; dsimp only; split_ifs <;> simp
@[simp] theorem beginFrame_monitor (k : Fin 4) (s : State) : (beginFrame k s).monitor = s.monitor := by unfold beginFrame; dsimp only; split_ifs <;> simp
@[simp] theorem beginFrame_board (k : Fin 4) (s : State) : (beginFrame k s).board = s.board := by unfold beginFrame; dsimp only; split_ifs <;> simp
@[simp] theorem beginFrame_admission (k : Fin 4) (s : State) : (beginFrame k s).admission = s.admission := by unfold beginFrame; dsimp only; split_ifs <;> simp
@[simp] theorem beginFrame_lanes (k : Fin 4) (s : State) : (beginFrame k s).lanes = s.lanes := by unfold beginFrame; dsimp only; split_ifs <;> simp
@[simp] theorem beginFrame_closing (k : Fin 4) (s : State) : (beginFrame k s).closing = s.closing := by unfold beginFrame; dsimp only; split_ifs <;> simp
@[simp] theorem beginFrame_frame (k : Fin 4) (s : State) : (beginFrame k s).frame = s.frame := by unfold beginFrame; dsimp only; split_ifs <;> simp
@[simp] theorem beginFrame_rails (k : Fin 4) (s : State) : (beginFrame k s).rails = s.rails := by unfold beginFrame; dsimp only; split_ifs <;> simp
@[simp] theorem beginFrame_tally (k : Fin 4) (s : State) : (beginFrame k s).tally = s.tally := by unfold beginFrame; dsimp only; split_ifs <;> simp
@[simp] theorem beginFrame_resets (k : Fin 4) (s : State) : (beginFrame k s).resets = s.resets := by unfold beginFrame; dsimp only; split_ifs <;> simp
@[simp] theorem endFrames_pending (s : State) : (endFrames s).pending = s.pending := by
  have h : ∀ (l : List (Fin 4)) (s : State), (l.foldl (fun s k => endFrame k s) s).pending = s.pending :=
    fun l s => foldl_keeps State.pending _ (fun s a => by simp) l s
  simp [endFrames, h]
@[simp] theorem endFrames_pins (s : State) : (endFrames s).pins = s.pins := by
  have h : ∀ (l : List (Fin 4)) (s : State), (l.foldl (fun s k => endFrame k s) s).pins = s.pins :=
    fun l s => foldl_keeps State.pins _ (fun s a => by simp) l s
  simp [endFrames, h]
@[simp] theorem endFrames_port (s : State) : (endFrames s).port = s.port := by
  have h : ∀ (l : List (Fin 4)) (s : State), (l.foldl (fun s k => endFrame k s) s).port = s.port :=
    fun l s => foldl_keeps State.port _ (fun s a => by simp) l s
  simp [endFrames, h]
@[simp] theorem endFrames_start (s : State) : (endFrames s).start = s.start := by
  have h : ∀ (l : List (Fin 4)) (s : State), (l.foldl (fun s k => endFrame k s) s).start = s.start :=
    fun l s => foldl_keeps State.start _ (fun s a => by simp) l s
  simp [endFrames, h]
@[simp] theorem endFrames_setup (s : State) : (endFrames s).setup = s.setup := by
  have h : ∀ (l : List (Fin 4)) (s : State), (l.foldl (fun s k => endFrame k s) s).setup = s.setup :=
    fun l s => foldl_keeps State.setup _ (fun s a => by simp) l s
  simp [endFrames, h]
@[simp] theorem endFrames_banks (s : State) : (endFrames s).banks = s.banks := by
  have h : ∀ (l : List (Fin 4)) (s : State), (l.foldl (fun s k => endFrame k s) s).banks = s.banks :=
    fun l s => foldl_keeps State.banks _ (fun s a => by simp) l s
  simp [endFrames, h]
@[simp] theorem endFrames_monitor (s : State) : (endFrames s).monitor = s.monitor := by
  have h : ∀ (l : List (Fin 4)) (s : State), (l.foldl (fun s k => endFrame k s) s).monitor = s.monitor :=
    fun l s => foldl_keeps State.monitor _ (fun s a => by simp) l s
  simp [endFrames, h]
@[simp] theorem endFrames_resets (s : State) : (endFrames s).resets = s.resets := by
  have h : ∀ (l : List (Fin 4)) (s : State), (l.foldl (fun s k => endFrame k s) s).resets = s.resets :=
    fun l s => foldl_keeps State.resets _ (fun s a => by simp) l s
  simp [endFrames, h]
@[simp] theorem beginFrames_pending (s : State) : (beginFrames s).pending = s.pending := by
  have h : ∀ (l : List (Fin 4)) (s : State), (l.foldl (fun s k => beginFrame k s) s).pending = s.pending :=
    fun l s => foldl_keeps State.pending _ (fun s a => by simp) l s
  simp [beginFrames, h]
@[simp] theorem beginFrames_dram (s : State) : (beginFrames s).dram = s.dram := by
  have h : ∀ (l : List (Fin 4)) (s : State), (l.foldl (fun s k => beginFrame k s) s).dram = s.dram :=
    fun l s => foldl_keeps State.dram _ (fun s a => by simp) l s
  simp [beginFrames, h]
@[simp] theorem beginFrames_pins (s : State) : (beginFrames s).pins = s.pins := by
  have h : ∀ (l : List (Fin 4)) (s : State), (l.foldl (fun s k => beginFrame k s) s).pins = s.pins :=
    fun l s => foldl_keeps State.pins _ (fun s a => by simp) l s
  simp [beginFrames, h]
@[simp] theorem beginFrames_port (s : State) : (beginFrames s).port = s.port := by
  have h : ∀ (l : List (Fin 4)) (s : State), (l.foldl (fun s k => beginFrame k s) s).port = s.port :=
    fun l s => foldl_keeps State.port _ (fun s a => by simp) l s
  simp [beginFrames, h]
@[simp] theorem beginFrames_notice (s : State) : (beginFrames s).notice = s.notice := by
  have h : ∀ (l : List (Fin 4)) (s : State), (l.foldl (fun s k => beginFrame k s) s).notice = s.notice :=
    fun l s => foldl_keeps State.notice _ (fun s a => by simp) l s
  simp [beginFrames, h]
@[simp] theorem beginFrames_start (s : State) : (beginFrames s).start = s.start := by
  have h : ∀ (l : List (Fin 4)) (s : State), (l.foldl (fun s k => beginFrame k s) s).start = s.start :=
    fun l s => foldl_keeps State.start _ (fun s a => by simp) l s
  simp [beginFrames, h]
@[simp] theorem beginFrames_setup (s : State) : (beginFrames s).setup = s.setup := by
  have h : ∀ (l : List (Fin 4)) (s : State), (l.foldl (fun s k => beginFrame k s) s).setup = s.setup :=
    fun l s => foldl_keeps State.setup _ (fun s a => by simp) l s
  simp [beginFrames, h]
@[simp] theorem beginFrames_banks (s : State) : (beginFrames s).banks = s.banks := by
  have h : ∀ (l : List (Fin 4)) (s : State), (l.foldl (fun s k => beginFrame k s) s).banks = s.banks :=
    fun l s => foldl_keeps State.banks _ (fun s a => by simp) l s
  simp [beginFrames, h]
@[simp] theorem beginFrames_monitor (s : State) : (beginFrames s).monitor = s.monitor := by
  have h : ∀ (l : List (Fin 4)) (s : State), (l.foldl (fun s k => beginFrame k s) s).monitor = s.monitor :=
    fun l s => foldl_keeps State.monitor _ (fun s a => by simp) l s
  simp [beginFrames, h]
@[simp] theorem beginFrames_board (s : State) : (beginFrames s).board = s.board := by
  have h : ∀ (l : List (Fin 4)) (s : State), (l.foldl (fun s k => beginFrame k s) s).board = s.board :=
    fun l s => foldl_keeps State.board _ (fun s a => by simp) l s
  simp [beginFrames, h]
@[simp] theorem beginFrames_admission (s : State) : (beginFrames s).admission = s.admission := by
  have h : ∀ (l : List (Fin 4)) (s : State), (l.foldl (fun s k => beginFrame k s) s).admission = s.admission :=
    fun l s => foldl_keeps State.admission _ (fun s a => by simp) l s
  simp [beginFrames, h]
@[simp] theorem beginFrames_lanes (s : State) : (beginFrames s).lanes = s.lanes := by
  have h : ∀ (l : List (Fin 4)) (s : State), (l.foldl (fun s k => beginFrame k s) s).lanes = s.lanes :=
    fun l s => foldl_keeps State.lanes _ (fun s a => by simp) l s
  simp [beginFrames, h]
@[simp] theorem beginFrames_closing (s : State) : (beginFrames s).closing = s.closing := by
  have h : ∀ (l : List (Fin 4)) (s : State), (l.foldl (fun s k => beginFrame k s) s).closing = s.closing :=
    fun l s => foldl_keeps State.closing _ (fun s a => by simp) l s
  simp [beginFrames, h]
@[simp] theorem beginFrames_rails (s : State) : (beginFrames s).rails = s.rails := by
  have h : ∀ (l : List (Fin 4)) (s : State), (l.foldl (fun s k => beginFrame k s) s).rails = s.rails :=
    fun l s => foldl_keeps State.rails _ (fun s a => by simp) l s
  simp [beginFrames, h]
@[simp] theorem beginFrames_tally (s : State) : (beginFrames s).tally = s.tally := by
  have h : ∀ (l : List (Fin 4)) (s : State), (l.foldl (fun s k => beginFrame k s) s).tally = s.tally :=
    fun l s => foldl_keeps State.tally _ (fun s a => by simp) l s
  simp [beginFrames, h]
@[simp] theorem beginFrames_resets (s : State) : (beginFrames s).resets = s.resets := by
  have h : ∀ (l : List (Fin 4)) (s : State), (l.foldl (fun s k => beginFrame k s) s).resets = s.resets :=
    fun l s => foldl_keeps State.resets _ (fun s a => by simp) l s
  simp [beginFrames, h]
@[simp] theorem startTraining_pending (k : Fin 4) (s : State) : (startTraining k s).pending = s.pending := by unfold startTraining; split <;> simp
@[simp] theorem startTraining_dram (k : Fin 4) (s : State) : (startTraining k s).dram = s.dram := by unfold startTraining; split <;> simp
@[simp] theorem startTraining_pins (k : Fin 4) (s : State) : (startTraining k s).pins = s.pins := by unfold startTraining; split <;> simp
@[simp] theorem startTraining_port (k : Fin 4) (s : State) : (startTraining k s).port = s.port := by unfold startTraining; split <;> simp
@[simp] theorem startTraining_notice (k : Fin 4) (s : State) : (startTraining k s).notice = s.notice := by unfold startTraining; split <;> simp
@[simp] theorem startTraining_start (k : Fin 4) (s : State) : (startTraining k s).start = s.start := by unfold startTraining; split <;> simp
@[simp] theorem startTraining_setup (k : Fin 4) (s : State) : (startTraining k s).setup = s.setup := by unfold startTraining; split <;> simp
@[simp] theorem startTraining_banks (k : Fin 4) (s : State) : (startTraining k s).banks = s.banks := by unfold startTraining; split <;> simp
@[simp] theorem startTraining_monitor (k : Fin 4) (s : State) : (startTraining k s).monitor = s.monitor := by unfold startTraining; split <;> simp
@[simp] theorem startTraining_admission (k : Fin 4) (s : State) : (startTraining k s).admission = s.admission := by unfold startTraining; split <;> simp
@[simp] theorem startTraining_lanes (k : Fin 4) (s : State) : (startTraining k s).lanes = s.lanes := by unfold startTraining; split <;> simp
@[simp] theorem startTraining_closing (k : Fin 4) (s : State) : (startTraining k s).closing = s.closing := by unfold startTraining; split <;> simp
@[simp] theorem startTraining_frame (k : Fin 4) (s : State) : (startTraining k s).frame = s.frame := by unfold startTraining; split <;> simp
@[simp] theorem startTraining_rails (k : Fin 4) (s : State) : (startTraining k s).rails = s.rails := by unfold startTraining; split <;> simp
@[simp] theorem startTraining_tally (k : Fin 4) (s : State) : (startTraining k s).tally = s.tally := by unfold startTraining; split <;> simp
@[simp] theorem startTraining_resets (k : Fin 4) (s : State) : (startTraining k s).resets = s.resets := by unfold startTraining; split <;> simp
@[simp] theorem relinkAll_pending (s : State) : (relinkAll s).pending = s.pending := by
  have h : ∀ (l : List (Fin 4)) (s : State), (l.foldl (fun s k => startTraining k s) s).pending = s.pending :=
    fun l s => foldl_keeps State.pending _ (fun s a => by simp) l s
  simp [relinkAll, h]
@[simp] theorem relinkAll_pins (s : State) : (relinkAll s).pins = s.pins := by
  have h : ∀ (l : List (Fin 4)) (s : State), (l.foldl (fun s k => startTraining k s) s).pins = s.pins :=
    fun l s => foldl_keeps State.pins _ (fun s a => by simp) l s
  simp [relinkAll, h]
@[simp] theorem relinkAll_port (s : State) : (relinkAll s).port = s.port := by
  have h : ∀ (l : List (Fin 4)) (s : State), (l.foldl (fun s k => startTraining k s) s).port = s.port :=
    fun l s => foldl_keeps State.port _ (fun s a => by simp) l s
  simp [relinkAll, h]
@[simp] theorem relinkAll_start (s : State) : (relinkAll s).start = s.start := by
  have h : ∀ (l : List (Fin 4)) (s : State), (l.foldl (fun s k => startTraining k s) s).start = s.start :=
    fun l s => foldl_keeps State.start _ (fun s a => by simp) l s
  simp [relinkAll, h]
@[simp] theorem relinkAll_setup (s : State) : (relinkAll s).setup = s.setup := by
  have h : ∀ (l : List (Fin 4)) (s : State), (l.foldl (fun s k => startTraining k s) s).setup = s.setup :=
    fun l s => foldl_keeps State.setup _ (fun s a => by simp) l s
  simp [relinkAll, h]
@[simp] theorem relinkAll_banks (s : State) : (relinkAll s).banks = s.banks := by
  have h : ∀ (l : List (Fin 4)) (s : State), (l.foldl (fun s k => startTraining k s) s).banks = s.banks :=
    fun l s => foldl_keeps State.banks _ (fun s a => by simp) l s
  simp [relinkAll, h]
@[simp] theorem relinkAll_monitor (s : State) : (relinkAll s).monitor = s.monitor := by
  have h : ∀ (l : List (Fin 4)) (s : State), (l.foldl (fun s k => startTraining k s) s).monitor = s.monitor :=
    fun l s => foldl_keeps State.monitor _ (fun s a => by simp) l s
  simp [relinkAll, h]
@[simp] theorem relinkAll_resets (s : State) : (relinkAll s).resets = s.resets := by
  have h : ∀ (l : List (Fin 4)) (s : State), (l.foldl (fun s k => startTraining k s) s).resets = s.resets :=
    fun l s => foldl_keeps State.resets _ (fun s a => by simp) l s
  simp [relinkAll, h]
@[simp] theorem advanceLane_pending (n : Fin 32) (s : State) : (advanceLane n s).pending = s.pending := by unfold advanceLane; dsimp only; split <;> simp
@[simp] theorem advanceLane_pins (n : Fin 32) (s : State) : (advanceLane n s).pins = s.pins := by unfold advanceLane; dsimp only; split <;> simp
@[simp] theorem advanceLane_port (n : Fin 32) (s : State) : (advanceLane n s).port = s.port := by unfold advanceLane; dsimp only; split <;> simp
@[simp] theorem advanceLane_notice (n : Fin 32) (s : State) : (advanceLane n s).notice = s.notice := by unfold advanceLane; dsimp only; split <;> simp
@[simp] theorem advanceLane_start (n : Fin 32) (s : State) : (advanceLane n s).start = s.start := by unfold advanceLane; dsimp only; split <;> simp
@[simp] theorem advanceLane_setup (n : Fin 32) (s : State) : (advanceLane n s).setup = s.setup := by unfold advanceLane; dsimp only; split <;> simp
@[simp] theorem advanceLane_banks (n : Fin 32) (s : State) : (advanceLane n s).banks = s.banks := by unfold advanceLane; dsimp only; split <;> simp
@[simp] theorem advanceLane_monitor (n : Fin 32) (s : State) : (advanceLane n s).monitor = s.monitor := by unfold advanceLane; dsimp only; split <;> simp
@[simp] theorem advanceLane_board (n : Fin 32) (s : State) : (advanceLane n s).board = s.board := by unfold advanceLane; dsimp only; split <;> simp
@[simp] theorem advanceLane_admission (n : Fin 32) (s : State) : (advanceLane n s).admission = s.admission := by unfold advanceLane; dsimp only; split <;> simp
@[simp] theorem advanceLane_frame (n : Fin 32) (s : State) : (advanceLane n s).frame = s.frame := by unfold advanceLane; dsimp only; split <;> simp
@[simp] theorem advanceLane_links (n : Fin 32) (s : State) : (advanceLane n s).links = s.links := by unfold advanceLane; dsimp only; split <;> simp
@[simp] theorem advanceLane_rails (n : Fin 32) (s : State) : (advanceLane n s).rails = s.rails := by unfold advanceLane; dsimp only; split <;> simp
@[simp] theorem advanceLane_tally (n : Fin 32) (s : State) : (advanceLane n s).tally = s.tally := by unfold advanceLane; dsimp only; split <;> simp
@[simp] theorem advanceLane_resets (n : Fin 32) (s : State) : (advanceLane n s).resets = s.resets := by unfold advanceLane; dsimp only; split <;> simp
@[simp] theorem closeFrame_pending (s : State) : (closeFrame s).pending = s.pending := by
  have h : ∀ (l : List (Fin 32)) (p : State × Nat),
      (l.foldl (fun acc n => (advanceLane n acc.1, acc.2 + completions n acc.1)) p).1.pending = p.1.pending :=
    fun l p => foldl_keeps (fun p : State × Nat => p.1.pending) _ (fun s a => by simp) l p
  simp [closeFrame, h]
@[simp] theorem closeFrame_pins (s : State) : (closeFrame s).pins = s.pins := by
  have h : ∀ (l : List (Fin 32)) (p : State × Nat),
      (l.foldl (fun acc n => (advanceLane n acc.1, acc.2 + completions n acc.1)) p).1.pins = p.1.pins :=
    fun l p => foldl_keeps (fun p : State × Nat => p.1.pins) _ (fun s a => by simp) l p
  simp [closeFrame, h]
@[simp] theorem closeFrame_port (s : State) : (closeFrame s).port = s.port := by
  have h : ∀ (l : List (Fin 32)) (p : State × Nat),
      (l.foldl (fun acc n => (advanceLane n acc.1, acc.2 + completions n acc.1)) p).1.port = p.1.port :=
    fun l p => foldl_keeps (fun p : State × Nat => p.1.port) _ (fun s a => by simp) l p
  simp [closeFrame, h]
@[simp] theorem closeFrame_notice (s : State) : (closeFrame s).notice = s.notice := by
  have h : ∀ (l : List (Fin 32)) (p : State × Nat),
      (l.foldl (fun acc n => (advanceLane n acc.1, acc.2 + completions n acc.1)) p).1.notice = p.1.notice :=
    fun l p => foldl_keeps (fun p : State × Nat => p.1.notice) _ (fun s a => by simp) l p
  simp [closeFrame, h]
@[simp] theorem closeFrame_start (s : State) : (closeFrame s).start = s.start := by
  have h : ∀ (l : List (Fin 32)) (p : State × Nat),
      (l.foldl (fun acc n => (advanceLane n acc.1, acc.2 + completions n acc.1)) p).1.start = p.1.start :=
    fun l p => foldl_keeps (fun p : State × Nat => p.1.start) _ (fun s a => by simp) l p
  simp [closeFrame, h]
@[simp] theorem closeFrame_setup (s : State) : (closeFrame s).setup = s.setup := by
  have h : ∀ (l : List (Fin 32)) (p : State × Nat),
      (l.foldl (fun acc n => (advanceLane n acc.1, acc.2 + completions n acc.1)) p).1.setup = p.1.setup :=
    fun l p => foldl_keeps (fun p : State × Nat => p.1.setup) _ (fun s a => by simp) l p
  simp [closeFrame, h]
@[simp] theorem closeFrame_banks (s : State) : (closeFrame s).banks = s.banks := by
  have h : ∀ (l : List (Fin 32)) (p : State × Nat),
      (l.foldl (fun acc n => (advanceLane n acc.1, acc.2 + completions n acc.1)) p).1.banks = p.1.banks :=
    fun l p => foldl_keeps (fun p : State × Nat => p.1.banks) _ (fun s a => by simp) l p
  simp [closeFrame, h]
@[simp] theorem closeFrame_monitor (s : State) : (closeFrame s).monitor = s.monitor := by
  have h : ∀ (l : List (Fin 32)) (p : State × Nat),
      (l.foldl (fun acc n => (advanceLane n acc.1, acc.2 + completions n acc.1)) p).1.monitor = p.1.monitor :=
    fun l p => foldl_keeps (fun p : State × Nat => p.1.monitor) _ (fun s a => by simp) l p
  simp [closeFrame, h]
@[simp] theorem closeFrame_board (s : State) : (closeFrame s).board = s.board := by
  have h : ∀ (l : List (Fin 32)) (p : State × Nat),
      (l.foldl (fun acc n => (advanceLane n acc.1, acc.2 + completions n acc.1)) p).1.board = p.1.board :=
    fun l p => foldl_keeps (fun p : State × Nat => p.1.board) _ (fun s a => by simp) l p
  simp [closeFrame, h]
@[simp] theorem closeFrame_admission (s : State) : (closeFrame s).admission = s.admission := by
  have h : ∀ (l : List (Fin 32)) (p : State × Nat),
      (l.foldl (fun acc n => (advanceLane n acc.1, acc.2 + completions n acc.1)) p).1.admission = p.1.admission :=
    fun l p => foldl_keeps (fun p : State × Nat => p.1.admission) _ (fun s a => by simp) l p
  simp [closeFrame, h]
@[simp] theorem closeFrame_frame (s : State) : (closeFrame s).frame = s.frame := by
  have h : ∀ (l : List (Fin 32)) (p : State × Nat),
      (l.foldl (fun acc n => (advanceLane n acc.1, acc.2 + completions n acc.1)) p).1.frame = p.1.frame :=
    fun l p => foldl_keeps (fun p : State × Nat => p.1.frame) _ (fun s a => by simp) l p
  simp [closeFrame, h]
@[simp] theorem closeFrame_links (s : State) : (closeFrame s).links = s.links := by
  have h : ∀ (l : List (Fin 32)) (p : State × Nat),
      (l.foldl (fun acc n => (advanceLane n acc.1, acc.2 + completions n acc.1)) p).1.links = p.1.links :=
    fun l p => foldl_keeps (fun p : State × Nat => p.1.links) _ (fun s a => by simp) l p
  simp [closeFrame, h]
@[simp] theorem closeFrame_rails (s : State) : (closeFrame s).rails = s.rails := by
  have h : ∀ (l : List (Fin 32)) (p : State × Nat),
      (l.foldl (fun acc n => (advanceLane n acc.1, acc.2 + completions n acc.1)) p).1.rails = p.1.rails :=
    fun l p => foldl_keeps (fun p : State × Nat => p.1.rails) _ (fun s a => by simp) l p
  simp [closeFrame, h]
@[simp] theorem closeFrame_resets (s : State) : (closeFrame s).resets = s.resets := by
  have h : ∀ (l : List (Fin 32)) (p : State × Nat),
      (l.foldl (fun acc n => (advanceLane n acc.1, acc.2 + completions n acc.1)) p).1.resets = p.1.resets :=
    fun l p => foldl_keeps (fun p : State × Nat => p.1.resets) _ (fun s a => by simp) l p
  simp [closeFrame, h]
@[simp] theorem startLane_pending (n : Fin 32) (s : State) : (startLane n s).pending = s.pending := by simp [startLane]
@[simp] theorem startLane_dram (n : Fin 32) (s : State) : (startLane n s).dram = s.dram := by simp [startLane]
@[simp] theorem startLane_pins (n : Fin 32) (s : State) : (startLane n s).pins = s.pins := by simp [startLane]
@[simp] theorem startLane_port (n : Fin 32) (s : State) : (startLane n s).port = s.port := by simp [startLane]
@[simp] theorem startLane_notice (n : Fin 32) (s : State) : (startLane n s).notice = s.notice := by simp [startLane]
@[simp] theorem startLane_start (n : Fin 32) (s : State) : (startLane n s).start = s.start := by simp [startLane]
@[simp] theorem startLane_setup (n : Fin 32) (s : State) : (startLane n s).setup = s.setup := by simp [startLane]
@[simp] theorem startLane_banks (n : Fin 32) (s : State) : (startLane n s).banks = s.banks := by simp [startLane]
@[simp] theorem startLane_monitor (n : Fin 32) (s : State) : (startLane n s).monitor = s.monitor := by simp [startLane]
@[simp] theorem startLane_board (n : Fin 32) (s : State) : (startLane n s).board = s.board := by simp [startLane]
@[simp] theorem startLane_admission (n : Fin 32) (s : State) : (startLane n s).admission = s.admission := by simp [startLane]
@[simp] theorem startLane_closing (n : Fin 32) (s : State) : (startLane n s).closing = s.closing := by simp [startLane]
@[simp] theorem startLane_frame (n : Fin 32) (s : State) : (startLane n s).frame = s.frame := by simp [startLane]
@[simp] theorem startLane_links (n : Fin 32) (s : State) : (startLane n s).links = s.links := by simp [startLane]
@[simp] theorem startLane_rails (n : Fin 32) (s : State) : (startLane n s).rails = s.rails := by simp [startLane]
@[simp] theorem startLane_resets (n : Fin 32) (s : State) : (startLane n s).resets = s.resets := by simp [startLane]
@[simp] theorem startFrame_pending (s : State) : (startFrame s).pending = s.pending := by
  unfold startFrame
  split
  · exact foldl_keeps State.pending _ (fun s a => by simp) _ s
  · rfl
@[simp] theorem startFrame_dram (s : State) : (startFrame s).dram = s.dram := by
  unfold startFrame
  split
  · exact foldl_keeps State.dram _ (fun s a => by simp) _ s
  · rfl
@[simp] theorem startFrame_pins (s : State) : (startFrame s).pins = s.pins := by
  unfold startFrame
  split
  · exact foldl_keeps State.pins _ (fun s a => by simp) _ s
  · rfl
@[simp] theorem startFrame_port (s : State) : (startFrame s).port = s.port := by
  unfold startFrame
  split
  · exact foldl_keeps State.port _ (fun s a => by simp) _ s
  · rfl
@[simp] theorem startFrame_notice (s : State) : (startFrame s).notice = s.notice := by
  unfold startFrame
  split
  · exact foldl_keeps State.notice _ (fun s a => by simp) _ s
  · rfl
@[simp] theorem startFrame_start (s : State) : (startFrame s).start = s.start := by
  unfold startFrame
  split
  · exact foldl_keeps State.start _ (fun s a => by simp) _ s
  · rfl
@[simp] theorem startFrame_setup (s : State) : (startFrame s).setup = s.setup := by
  unfold startFrame
  split
  · exact foldl_keeps State.setup _ (fun s a => by simp) _ s
  · rfl
@[simp] theorem startFrame_banks (s : State) : (startFrame s).banks = s.banks := by
  unfold startFrame
  split
  · exact foldl_keeps State.banks _ (fun s a => by simp) _ s
  · rfl
@[simp] theorem startFrame_monitor (s : State) : (startFrame s).monitor = s.monitor := by
  unfold startFrame
  split
  · exact foldl_keeps State.monitor _ (fun s a => by simp) _ s
  · rfl
@[simp] theorem startFrame_board (s : State) : (startFrame s).board = s.board := by
  unfold startFrame
  split
  · exact foldl_keeps State.board _ (fun s a => by simp) _ s
  · rfl
@[simp] theorem startFrame_admission (s : State) : (startFrame s).admission = s.admission := by
  unfold startFrame
  split
  · exact foldl_keeps State.admission _ (fun s a => by simp) _ s
  · rfl
@[simp] theorem startFrame_closing (s : State) : (startFrame s).closing = s.closing := by
  unfold startFrame
  split
  · exact foldl_keeps State.closing _ (fun s a => by simp) _ s
  · rfl
@[simp] theorem startFrame_frame (s : State) : (startFrame s).frame = s.frame := by
  unfold startFrame
  split
  · exact foldl_keeps State.frame _ (fun s a => by simp) _ s
  · rfl
@[simp] theorem startFrame_links (s : State) : (startFrame s).links = s.links := by
  unfold startFrame
  split
  · exact foldl_keeps State.links _ (fun s a => by simp) _ s
  · rfl
@[simp] theorem startFrame_rails (s : State) : (startFrame s).rails = s.rails := by
  unfold startFrame
  split
  · exact foldl_keeps State.rails _ (fun s a => by simp) _ s
  · rfl
@[simp] theorem startFrame_resets (s : State) : (startFrame s).resets = s.resets := by
  unfold startFrame
  split
  · exact foldl_keeps State.resets _ (fun s a => by simp) _ s
  · rfl
@[simp] theorem tallyConfigure_pending (s : State) : (tallyConfigure s).pending = s.pending := rfl
@[simp] theorem tallyConfigure_dram (s : State) : (tallyConfigure s).dram = s.dram := rfl
@[simp] theorem tallyConfigure_pins (s : State) : (tallyConfigure s).pins = s.pins := rfl
@[simp] theorem tallyConfigure_port (s : State) : (tallyConfigure s).port = s.port := rfl
@[simp] theorem tallyConfigure_notice (s : State) : (tallyConfigure s).notice = s.notice := rfl
@[simp] theorem tallyConfigure_start (s : State) : (tallyConfigure s).start = s.start := rfl
@[simp] theorem tallyConfigure_setup (s : State) : (tallyConfigure s).setup = s.setup := rfl
@[simp] theorem tallyConfigure_banks (s : State) : (tallyConfigure s).banks = s.banks := rfl
@[simp] theorem tallyConfigure_monitor (s : State) : (tallyConfigure s).monitor = s.monitor := rfl
@[simp] theorem tallyConfigure_board (s : State) : (tallyConfigure s).board = s.board := rfl
@[simp] theorem tallyConfigure_admission (s : State) : (tallyConfigure s).admission = s.admission := rfl
@[simp] theorem tallyConfigure_lanes (s : State) : (tallyConfigure s).lanes = s.lanes := rfl
@[simp] theorem tallyConfigure_closing (s : State) : (tallyConfigure s).closing = s.closing := rfl
@[simp] theorem tallyConfigure_frame (s : State) : (tallyConfigure s).frame = s.frame := rfl
@[simp] theorem tallyConfigure_links (s : State) : (tallyConfigure s).links = s.links := rfl
@[simp] theorem tallyConfigure_rails (s : State) : (tallyConfigure s).rails = s.rails := rfl
@[simp] theorem tallyConfigure_resets (s : State) : (tallyConfigure s).resets = s.resets := rfl
@[simp] theorem tallySample_pending (s : State) : (tallySample s).pending = s.pending := rfl
@[simp] theorem tallySample_dram (s : State) : (tallySample s).dram = s.dram := rfl
@[simp] theorem tallySample_pins (s : State) : (tallySample s).pins = s.pins := rfl
@[simp] theorem tallySample_port (s : State) : (tallySample s).port = s.port := rfl
@[simp] theorem tallySample_notice (s : State) : (tallySample s).notice = s.notice := rfl
@[simp] theorem tallySample_start (s : State) : (tallySample s).start = s.start := rfl
@[simp] theorem tallySample_setup (s : State) : (tallySample s).setup = s.setup := rfl
@[simp] theorem tallySample_banks (s : State) : (tallySample s).banks = s.banks := rfl
@[simp] theorem tallySample_monitor (s : State) : (tallySample s).monitor = s.monitor := rfl
@[simp] theorem tallySample_board (s : State) : (tallySample s).board = s.board := rfl
@[simp] theorem tallySample_admission (s : State) : (tallySample s).admission = s.admission := rfl
@[simp] theorem tallySample_lanes (s : State) : (tallySample s).lanes = s.lanes := rfl
@[simp] theorem tallySample_closing (s : State) : (tallySample s).closing = s.closing := rfl
@[simp] theorem tallySample_frame (s : State) : (tallySample s).frame = s.frame := rfl
@[simp] theorem tallySample_links (s : State) : (tallySample s).links = s.links := rfl
@[simp] theorem tallySample_rails (s : State) : (tallySample s).rails = s.rails := rfl
@[simp] theorem tallySample_resets (s : State) : (tallySample s).resets = s.resets := rfl
@[simp] theorem engineWork_pending (s : State) : (engineWork s).pending = s.pending := by simp [engineWork]
@[simp] theorem engineWork_pins (s : State) : (engineWork s).pins = s.pins := by simp [engineWork]
@[simp] theorem engineWork_port (s : State) : (engineWork s).port = s.port := by simp [engineWork]
@[simp] theorem engineWork_notice (s : State) : (engineWork s).notice = s.notice := by simp [engineWork]
@[simp] theorem engineWork_start (s : State) : (engineWork s).start = s.start := by simp [engineWork]
@[simp] theorem engineWork_setup (s : State) : (engineWork s).setup = s.setup := by simp [engineWork]
@[simp] theorem engineWork_banks (s : State) : (engineWork s).banks = s.banks := by simp [engineWork]
@[simp] theorem engineWork_monitor (s : State) : (engineWork s).monitor = s.monitor := by simp [engineWork]
@[simp] theorem engineWork_board (s : State) : (engineWork s).board = s.board := by simp [engineWork]
@[simp] theorem engineWork_admission (s : State) : (engineWork s).admission = s.admission := by simp [engineWork]
@[simp] theorem engineWork_frame (s : State) : (engineWork s).frame = s.frame := by simp [engineWork]
@[simp] theorem engineWork_links (s : State) : (engineWork s).links = s.links := by simp [engineWork]
@[simp] theorem engineWork_rails (s : State) : (engineWork s).rails = s.rails := by simp [engineWork]
@[simp] theorem engineWork_resets (s : State) : (engineWork s).resets = s.resets := by simp [engineWork]
@[simp] theorem setWaiting_pending (l : List Waiting) (s : State) : (setWaiting l s).pending = s.pending := by simp [setWaiting]
@[simp] theorem setWaiting_dram (l : List Waiting) (s : State) : (setWaiting l s).dram = s.dram := by simp [setWaiting]
@[simp] theorem setWaiting_pins (l : List Waiting) (s : State) : (setWaiting l s).pins = s.pins := by simp [setWaiting]
@[simp] theorem setWaiting_port (l : List Waiting) (s : State) : (setWaiting l s).port = s.port := by simp [setWaiting]
@[simp] theorem setWaiting_notice (l : List Waiting) (s : State) : (setWaiting l s).notice = s.notice := by simp [setWaiting]
@[simp] theorem setWaiting_start (l : List Waiting) (s : State) : (setWaiting l s).start = s.start := by simp [setWaiting]
@[simp] theorem setWaiting_setup (l : List Waiting) (s : State) : (setWaiting l s).setup = s.setup := by simp [setWaiting]
@[simp] theorem setWaiting_banks (l : List Waiting) (s : State) : (setWaiting l s).banks = s.banks := by simp [setWaiting]
@[simp] theorem setWaiting_monitor (l : List Waiting) (s : State) : (setWaiting l s).monitor = s.monitor := by simp [setWaiting]
@[simp] theorem setWaiting_lanes (l : List Waiting) (s : State) : (setWaiting l s).lanes = s.lanes := by simp [setWaiting]
@[simp] theorem setWaiting_closing (l : List Waiting) (s : State) : (setWaiting l s).closing = s.closing := by simp [setWaiting]
@[simp] theorem setWaiting_frame (l : List Waiting) (s : State) : (setWaiting l s).frame = s.frame := by simp [setWaiting]
@[simp] theorem setWaiting_links (l : List Waiting) (s : State) : (setWaiting l s).links = s.links := by simp [setWaiting]
@[simp] theorem setWaiting_rails (l : List Waiting) (s : State) : (setWaiting l s).rails = s.rails := by simp [setWaiting]
@[simp] theorem setWaiting_tally (l : List Waiting) (s : State) : (setWaiting l s).tally = s.tally := by simp [setWaiting]
@[simp] theorem setWaiting_resets (l : List Waiting) (s : State) : (setWaiting l s).resets = s.resets := by simp [setWaiting]
@[simp] theorem endExam_pending (s : State) : (endExam s).pending = s.pending := rfl
@[simp] theorem endExam_dram (s : State) : (endExam s).dram = s.dram := rfl
@[simp] theorem endExam_pins (s : State) : (endExam s).pins = s.pins := rfl
@[simp] theorem endExam_port (s : State) : (endExam s).port = s.port := rfl
@[simp] theorem endExam_notice (s : State) : (endExam s).notice = s.notice := rfl
@[simp] theorem endExam_start (s : State) : (endExam s).start = s.start := rfl
@[simp] theorem endExam_setup (s : State) : (endExam s).setup = s.setup := rfl
@[simp] theorem endExam_banks (s : State) : (endExam s).banks = s.banks := rfl
@[simp] theorem endExam_monitor (s : State) : (endExam s).monitor = s.monitor := rfl
@[simp] theorem endExam_board (s : State) : (endExam s).board = s.board := rfl
@[simp] theorem endExam_lanes (s : State) : (endExam s).lanes = s.lanes := rfl
@[simp] theorem endExam_closing (s : State) : (endExam s).closing = s.closing := rfl
@[simp] theorem endExam_frame (s : State) : (endExam s).frame = s.frame := rfl
@[simp] theorem endExam_links (s : State) : (endExam s).links = s.links := rfl
@[simp] theorem endExam_rails (s : State) : (endExam s).rails = s.rails := rfl
@[simp] theorem endExam_tally (s : State) : (endExam s).tally = s.tally := rfl
@[simp] theorem endExam_resets (s : State) : (endExam s).resets = s.resets := rfl
@[simp] theorem dropExam_pending (i : Fin 64) (s : State) : (dropExam i s).pending = s.pending := by unfold dropExam; split <;> [(split <;> simp); rfl]
@[simp] theorem dropExam_dram (i : Fin 64) (s : State) : (dropExam i s).dram = s.dram := by unfold dropExam; split <;> [(split <;> simp); rfl]
@[simp] theorem dropExam_pins (i : Fin 64) (s : State) : (dropExam i s).pins = s.pins := by unfold dropExam; split <;> [(split <;> simp); rfl]
@[simp] theorem dropExam_port (i : Fin 64) (s : State) : (dropExam i s).port = s.port := by unfold dropExam; split <;> [(split <;> simp); rfl]
@[simp] theorem dropExam_notice (i : Fin 64) (s : State) : (dropExam i s).notice = s.notice := by unfold dropExam; split <;> [(split <;> simp); rfl]
@[simp] theorem dropExam_start (i : Fin 64) (s : State) : (dropExam i s).start = s.start := by unfold dropExam; split <;> [(split <;> simp); rfl]
@[simp] theorem dropExam_setup (i : Fin 64) (s : State) : (dropExam i s).setup = s.setup := by unfold dropExam; split <;> [(split <;> simp); rfl]
@[simp] theorem dropExam_banks (i : Fin 64) (s : State) : (dropExam i s).banks = s.banks := by unfold dropExam; split <;> [(split <;> simp); rfl]
@[simp] theorem dropExam_monitor (i : Fin 64) (s : State) : (dropExam i s).monitor = s.monitor := by unfold dropExam; split <;> [(split <;> simp); rfl]
@[simp] theorem dropExam_board (i : Fin 64) (s : State) : (dropExam i s).board = s.board := by unfold dropExam; split <;> [(split <;> simp); rfl]
@[simp] theorem dropExam_lanes (i : Fin 64) (s : State) : (dropExam i s).lanes = s.lanes := by unfold dropExam; split <;> [(split <;> simp); rfl]
@[simp] theorem dropExam_closing (i : Fin 64) (s : State) : (dropExam i s).closing = s.closing := by unfold dropExam; split <;> [(split <;> simp); rfl]
@[simp] theorem dropExam_frame (i : Fin 64) (s : State) : (dropExam i s).frame = s.frame := by unfold dropExam; split <;> [(split <;> simp); rfl]
@[simp] theorem dropExam_links (i : Fin 64) (s : State) : (dropExam i s).links = s.links := by unfold dropExam; split <;> [(split <;> simp); rfl]
@[simp] theorem dropExam_rails (i : Fin 64) (s : State) : (dropExam i s).rails = s.rails := by unfold dropExam; split <;> [(split <;> simp); rfl]
@[simp] theorem dropExam_tally (i : Fin 64) (s : State) : (dropExam i s).tally = s.tally := by unfold dropExam; split <;> [(split <;> simp); rfl]
@[simp] theorem dropExam_resets (i : Fin 64) (s : State) : (dropExam i s).resets = s.resets := by unfold dropExam; split <;> [(split <;> simp); rfl]
@[simp] theorem removeWaiting_pending (i : Fin 64) (s : State) : (removeWaiting i s).pending = s.pending := by simp [removeWaiting]
@[simp] theorem removeWaiting_dram (i : Fin 64) (s : State) : (removeWaiting i s).dram = s.dram := by simp [removeWaiting]
@[simp] theorem removeWaiting_pins (i : Fin 64) (s : State) : (removeWaiting i s).pins = s.pins := by simp [removeWaiting]
@[simp] theorem removeWaiting_port (i : Fin 64) (s : State) : (removeWaiting i s).port = s.port := by simp [removeWaiting]
@[simp] theorem removeWaiting_notice (i : Fin 64) (s : State) : (removeWaiting i s).notice = s.notice := by simp [removeWaiting]
@[simp] theorem removeWaiting_start (i : Fin 64) (s : State) : (removeWaiting i s).start = s.start := by simp [removeWaiting]
@[simp] theorem removeWaiting_setup (i : Fin 64) (s : State) : (removeWaiting i s).setup = s.setup := by simp [removeWaiting]
@[simp] theorem removeWaiting_banks (i : Fin 64) (s : State) : (removeWaiting i s).banks = s.banks := by simp [removeWaiting]
@[simp] theorem removeWaiting_monitor (i : Fin 64) (s : State) : (removeWaiting i s).monitor = s.monitor := by simp [removeWaiting]
@[simp] theorem removeWaiting_lanes (i : Fin 64) (s : State) : (removeWaiting i s).lanes = s.lanes := by simp [removeWaiting]
@[simp] theorem removeWaiting_closing (i : Fin 64) (s : State) : (removeWaiting i s).closing = s.closing := by simp [removeWaiting]
@[simp] theorem removeWaiting_frame (i : Fin 64) (s : State) : (removeWaiting i s).frame = s.frame := by simp [removeWaiting]
@[simp] theorem removeWaiting_links (i : Fin 64) (s : State) : (removeWaiting i s).links = s.links := by simp [removeWaiting]
@[simp] theorem removeWaiting_rails (i : Fin 64) (s : State) : (removeWaiting i s).rails = s.rails := by simp [removeWaiting]
@[simp] theorem removeWaiting_tally (i : Fin 64) (s : State) : (removeWaiting i s).tally = s.tally := by simp [removeWaiting]
@[simp] theorem removeWaiting_resets (i : Fin 64) (s : State) : (removeWaiting i s).resets = s.resets := by simp [removeWaiting]
@[simp] theorem finishWaiting_pending (e : Waiting) (o : SlotOutcome) (s : State) : (finishWaiting e o s).pending = s.pending := by simp [finishWaiting]
@[simp] theorem finishWaiting_dram (e : Waiting) (o : SlotOutcome) (s : State) : (finishWaiting e o s).dram = s.dram := by simp [finishWaiting]
@[simp] theorem finishWaiting_pins (e : Waiting) (o : SlotOutcome) (s : State) : (finishWaiting e o s).pins = s.pins := by simp [finishWaiting]
@[simp] theorem finishWaiting_port (e : Waiting) (o : SlotOutcome) (s : State) : (finishWaiting e o s).port = s.port := by simp [finishWaiting]
@[simp] theorem finishWaiting_notice (e : Waiting) (o : SlotOutcome) (s : State) : (finishWaiting e o s).notice = s.notice := by simp [finishWaiting]
@[simp] theorem finishWaiting_start (e : Waiting) (o : SlotOutcome) (s : State) : (finishWaiting e o s).start = s.start := by simp [finishWaiting]
@[simp] theorem finishWaiting_setup (e : Waiting) (o : SlotOutcome) (s : State) : (finishWaiting e o s).setup = s.setup := by simp [finishWaiting]
@[simp] theorem finishWaiting_banks (e : Waiting) (o : SlotOutcome) (s : State) : (finishWaiting e o s).banks = s.banks := by simp [finishWaiting]
@[simp] theorem finishWaiting_monitor (e : Waiting) (o : SlotOutcome) (s : State) : (finishWaiting e o s).monitor = s.monitor := by simp [finishWaiting]
@[simp] theorem finishWaiting_lanes (e : Waiting) (o : SlotOutcome) (s : State) : (finishWaiting e o s).lanes = s.lanes := by simp [finishWaiting]
@[simp] theorem finishWaiting_closing (e : Waiting) (o : SlotOutcome) (s : State) : (finishWaiting e o s).closing = s.closing := by simp [finishWaiting]
@[simp] theorem finishWaiting_frame (e : Waiting) (o : SlotOutcome) (s : State) : (finishWaiting e o s).frame = s.frame := by simp [finishWaiting]
@[simp] theorem finishWaiting_links (e : Waiting) (o : SlotOutcome) (s : State) : (finishWaiting e o s).links = s.links := by simp [finishWaiting]
@[simp] theorem finishWaiting_rails (e : Waiting) (o : SlotOutcome) (s : State) : (finishWaiting e o s).rails = s.rails := by simp [finishWaiting]
@[simp] theorem finishWaiting_tally (e : Waiting) (o : SlotOutcome) (s : State) : (finishWaiting e o s).tally = s.tally := by simp [finishWaiting]
@[simp] theorem finishWaiting_resets (e : Waiting) (o : SlotOutcome) (s : State) : (finishWaiting e o s).resets = s.resets := by simp [finishWaiting]
@[simp] theorem finishAtTake_pending (i : Fin 64) (q : Intake) (o : SlotOutcome) (s : State) : (finishAtTake i q o s).pending = s.pending := by simp [finishAtTake]
@[simp] theorem finishAtTake_dram (i : Fin 64) (q : Intake) (o : SlotOutcome) (s : State) : (finishAtTake i q o s).dram = s.dram := by simp [finishAtTake]
@[simp] theorem finishAtTake_pins (i : Fin 64) (q : Intake) (o : SlotOutcome) (s : State) : (finishAtTake i q o s).pins = s.pins := by simp [finishAtTake]
@[simp] theorem finishAtTake_port (i : Fin 64) (q : Intake) (o : SlotOutcome) (s : State) : (finishAtTake i q o s).port = s.port := by simp [finishAtTake]
@[simp] theorem finishAtTake_notice (i : Fin 64) (q : Intake) (o : SlotOutcome) (s : State) : (finishAtTake i q o s).notice = s.notice := by simp [finishAtTake]
@[simp] theorem finishAtTake_start (i : Fin 64) (q : Intake) (o : SlotOutcome) (s : State) : (finishAtTake i q o s).start = s.start := by simp [finishAtTake]
@[simp] theorem finishAtTake_setup (i : Fin 64) (q : Intake) (o : SlotOutcome) (s : State) : (finishAtTake i q o s).setup = s.setup := by simp [finishAtTake]
@[simp] theorem finishAtTake_banks (i : Fin 64) (q : Intake) (o : SlotOutcome) (s : State) : (finishAtTake i q o s).banks = s.banks := by simp [finishAtTake]
@[simp] theorem finishAtTake_monitor (i : Fin 64) (q : Intake) (o : SlotOutcome) (s : State) : (finishAtTake i q o s).monitor = s.monitor := by simp [finishAtTake]
@[simp] theorem finishAtTake_admission (i : Fin 64) (q : Intake) (o : SlotOutcome) (s : State) : (finishAtTake i q o s).admission = s.admission := by simp [finishAtTake]
@[simp] theorem finishAtTake_lanes (i : Fin 64) (q : Intake) (o : SlotOutcome) (s : State) : (finishAtTake i q o s).lanes = s.lanes := by simp [finishAtTake]
@[simp] theorem finishAtTake_closing (i : Fin 64) (q : Intake) (o : SlotOutcome) (s : State) : (finishAtTake i q o s).closing = s.closing := by simp [finishAtTake]
@[simp] theorem finishAtTake_frame (i : Fin 64) (q : Intake) (o : SlotOutcome) (s : State) : (finishAtTake i q o s).frame = s.frame := by simp [finishAtTake]
@[simp] theorem finishAtTake_links (i : Fin 64) (q : Intake) (o : SlotOutcome) (s : State) : (finishAtTake i q o s).links = s.links := by simp [finishAtTake]
@[simp] theorem finishAtTake_rails (i : Fin 64) (q : Intake) (o : SlotOutcome) (s : State) : (finishAtTake i q o s).rails = s.rails := by simp [finishAtTake]
@[simp] theorem finishAtTake_tally (i : Fin 64) (q : Intake) (o : SlotOutcome) (s : State) : (finishAtTake i q o s).tally = s.tally := by simp [finishAtTake]
@[simp] theorem finishAtTake_resets (i : Fin 64) (q : Intake) (o : SlotOutcome) (s : State) : (finishAtTake i q o s).resets = s.resets := by simp [finishAtTake]
@[simp] theorem appendWaiting_pending (i : Fin 64) (q : Intake) (s : State) : (appendWaiting i q s).pending = s.pending := by simp [appendWaiting]
@[simp] theorem appendWaiting_dram (i : Fin 64) (q : Intake) (s : State) : (appendWaiting i q s).dram = s.dram := by simp [appendWaiting]
@[simp] theorem appendWaiting_pins (i : Fin 64) (q : Intake) (s : State) : (appendWaiting i q s).pins = s.pins := by simp [appendWaiting]
@[simp] theorem appendWaiting_port (i : Fin 64) (q : Intake) (s : State) : (appendWaiting i q s).port = s.port := by simp [appendWaiting]
@[simp] theorem appendWaiting_notice (i : Fin 64) (q : Intake) (s : State) : (appendWaiting i q s).notice = s.notice := by simp [appendWaiting]
@[simp] theorem appendWaiting_start (i : Fin 64) (q : Intake) (s : State) : (appendWaiting i q s).start = s.start := by simp [appendWaiting]
@[simp] theorem appendWaiting_setup (i : Fin 64) (q : Intake) (s : State) : (appendWaiting i q s).setup = s.setup := by simp [appendWaiting]
@[simp] theorem appendWaiting_banks (i : Fin 64) (q : Intake) (s : State) : (appendWaiting i q s).banks = s.banks := by simp [appendWaiting]
@[simp] theorem appendWaiting_monitor (i : Fin 64) (q : Intake) (s : State) : (appendWaiting i q s).monitor = s.monitor := by simp [appendWaiting]
@[simp] theorem appendWaiting_lanes (i : Fin 64) (q : Intake) (s : State) : (appendWaiting i q s).lanes = s.lanes := by simp [appendWaiting]
@[simp] theorem appendWaiting_closing (i : Fin 64) (q : Intake) (s : State) : (appendWaiting i q s).closing = s.closing := by simp [appendWaiting]
@[simp] theorem appendWaiting_frame (i : Fin 64) (q : Intake) (s : State) : (appendWaiting i q s).frame = s.frame := by simp [appendWaiting]
@[simp] theorem appendWaiting_links (i : Fin 64) (q : Intake) (s : State) : (appendWaiting i q s).links = s.links := by simp [appendWaiting]
@[simp] theorem appendWaiting_rails (i : Fin 64) (q : Intake) (s : State) : (appendWaiting i q s).rails = s.rails := by simp [appendWaiting]
@[simp] theorem appendWaiting_tally (i : Fin 64) (q : Intake) (s : State) : (appendWaiting i q s).tally = s.tally := by simp [appendWaiting]
@[simp] theorem appendWaiting_resets (i : Fin 64) (q : Intake) (s : State) : (appendWaiting i q s).resets = s.resets := by simp [appendWaiting]
@[simp] theorem takePosting_pending (i : Fin 64) (ws : List Word) (s : State) : (takePosting i ws s).pending = s.pending := by unfold takePosting; dsimp only; split <;> [simp; (split <;> [simp; (split <;> simp)])]
@[simp] theorem takePosting_dram (i : Fin 64) (ws : List Word) (s : State) : (takePosting i ws s).dram = s.dram := by unfold takePosting; dsimp only; split <;> [simp; (split <;> [simp; (split <;> simp)])]
@[simp] theorem takePosting_pins (i : Fin 64) (ws : List Word) (s : State) : (takePosting i ws s).pins = s.pins := by unfold takePosting; dsimp only; split <;> [simp; (split <;> [simp; (split <;> simp)])]
@[simp] theorem takePosting_port (i : Fin 64) (ws : List Word) (s : State) : (takePosting i ws s).port = s.port := by unfold takePosting; dsimp only; split <;> [simp; (split <;> [simp; (split <;> simp)])]
@[simp] theorem takePosting_notice (i : Fin 64) (ws : List Word) (s : State) : (takePosting i ws s).notice = s.notice := by unfold takePosting; dsimp only; split <;> [simp; (split <;> [simp; (split <;> simp)])]
@[simp] theorem takePosting_start (i : Fin 64) (ws : List Word) (s : State) : (takePosting i ws s).start = s.start := by unfold takePosting; dsimp only; split <;> [simp; (split <;> [simp; (split <;> simp)])]
@[simp] theorem takePosting_setup (i : Fin 64) (ws : List Word) (s : State) : (takePosting i ws s).setup = s.setup := by unfold takePosting; dsimp only; split <;> [simp; (split <;> [simp; (split <;> simp)])]
@[simp] theorem takePosting_banks (i : Fin 64) (ws : List Word) (s : State) : (takePosting i ws s).banks = s.banks := by unfold takePosting; dsimp only; split <;> [simp; (split <;> [simp; (split <;> simp)])]
@[simp] theorem takePosting_monitor (i : Fin 64) (ws : List Word) (s : State) : (takePosting i ws s).monitor = s.monitor := by unfold takePosting; dsimp only; split <;> [simp; (split <;> [simp; (split <;> simp)])]
@[simp] theorem takePosting_lanes (i : Fin 64) (ws : List Word) (s : State) : (takePosting i ws s).lanes = s.lanes := by unfold takePosting; dsimp only; split <;> [simp; (split <;> [simp; (split <;> simp)])]
@[simp] theorem takePosting_closing (i : Fin 64) (ws : List Word) (s : State) : (takePosting i ws s).closing = s.closing := by unfold takePosting; dsimp only; split <;> [simp; (split <;> [simp; (split <;> simp)])]
@[simp] theorem takePosting_frame (i : Fin 64) (ws : List Word) (s : State) : (takePosting i ws s).frame = s.frame := by unfold takePosting; dsimp only; split <;> [simp; (split <;> [simp; (split <;> simp)])]
@[simp] theorem takePosting_links (i : Fin 64) (ws : List Word) (s : State) : (takePosting i ws s).links = s.links := by unfold takePosting; dsimp only; split <;> [simp; (split <;> [simp; (split <;> simp)])]
@[simp] theorem takePosting_rails (i : Fin 64) (ws : List Word) (s : State) : (takePosting i ws s).rails = s.rails := by unfold takePosting; dsimp only; split <;> [simp; (split <;> [simp; (split <;> simp)])]
@[simp] theorem takePosting_tally (i : Fin 64) (ws : List Word) (s : State) : (takePosting i ws s).tally = s.tally := by unfold takePosting; dsimp only; split <;> [simp; (split <;> [simp; (split <;> simp)])]
@[simp] theorem takePosting_resets (i : Fin 64) (ws : List Word) (s : State) : (takePosting i ws s).resets = s.resets := by unfold takePosting; dsimp only; split <;> [simp; (split <;> [simp; (split <;> simp)])]
@[simp] theorem flushTick_pending (s : State) : (flushTick s).pending = s.pending := by unfold flushTick; split <;> [(split <;> simp); rfl]
@[simp] theorem flushTick_dram (s : State) : (flushTick s).dram = s.dram := by unfold flushTick; split <;> [(split <;> simp); rfl]
@[simp] theorem flushTick_pins (s : State) : (flushTick s).pins = s.pins := by unfold flushTick; split <;> [(split <;> simp); rfl]
@[simp] theorem flushTick_port (s : State) : (flushTick s).port = s.port := by unfold flushTick; split <;> [(split <;> simp); rfl]
@[simp] theorem flushTick_notice (s : State) : (flushTick s).notice = s.notice := by unfold flushTick; split <;> [(split <;> simp); rfl]
@[simp] theorem flushTick_start (s : State) : (flushTick s).start = s.start := by unfold flushTick; split <;> [(split <;> simp); rfl]
@[simp] theorem flushTick_setup (s : State) : (flushTick s).setup = s.setup := by unfold flushTick; split <;> [(split <;> simp); rfl]
@[simp] theorem flushTick_banks (s : State) : (flushTick s).banks = s.banks := by unfold flushTick; split <;> [(split <;> simp); rfl]
@[simp] theorem flushTick_monitor (s : State) : (flushTick s).monitor = s.monitor := by unfold flushTick; split <;> [(split <;> simp); rfl]
@[simp] theorem flushTick_lanes (s : State) : (flushTick s).lanes = s.lanes := by unfold flushTick; split <;> [(split <;> simp); rfl]
@[simp] theorem flushTick_closing (s : State) : (flushTick s).closing = s.closing := by unfold flushTick; split <;> [(split <;> simp); rfl]
@[simp] theorem flushTick_frame (s : State) : (flushTick s).frame = s.frame := by unfold flushTick; split <;> [(split <;> simp); rfl]
@[simp] theorem flushTick_links (s : State) : (flushTick s).links = s.links := by unfold flushTick; split <;> [(split <;> simp); rfl]
@[simp] theorem flushTick_rails (s : State) : (flushTick s).rails = s.rails := by unfold flushTick; split <;> [(split <;> simp); rfl]
@[simp] theorem flushTick_tally (s : State) : (flushTick s).tally = s.tally := by unfold flushTick; split <;> [(split <;> simp); rfl]
@[simp] theorem flushTick_resets (s : State) : (flushTick s).resets = s.resets := by unfold flushTick; split <;> [(split <;> simp); rfl]
@[simp] theorem withdrawLate_pending (i : Fin 64) (s : State) : (withdrawLate i s).pending = s.pending := by unfold withdrawLate; split <;> [(split <;> simp); rfl]
@[simp] theorem withdrawLate_dram (i : Fin 64) (s : State) : (withdrawLate i s).dram = s.dram := by unfold withdrawLate; split <;> [(split <;> simp); rfl]
@[simp] theorem withdrawLate_pins (i : Fin 64) (s : State) : (withdrawLate i s).pins = s.pins := by unfold withdrawLate; split <;> [(split <;> simp); rfl]
@[simp] theorem withdrawLate_port (i : Fin 64) (s : State) : (withdrawLate i s).port = s.port := by unfold withdrawLate; split <;> [(split <;> simp); rfl]
@[simp] theorem withdrawLate_notice (i : Fin 64) (s : State) : (withdrawLate i s).notice = s.notice := by unfold withdrawLate; split <;> [(split <;> simp); rfl]
@[simp] theorem withdrawLate_start (i : Fin 64) (s : State) : (withdrawLate i s).start = s.start := by unfold withdrawLate; split <;> [(split <;> simp); rfl]
@[simp] theorem withdrawLate_setup (i : Fin 64) (s : State) : (withdrawLate i s).setup = s.setup := by unfold withdrawLate; split <;> [(split <;> simp); rfl]
@[simp] theorem withdrawLate_banks (i : Fin 64) (s : State) : (withdrawLate i s).banks = s.banks := by unfold withdrawLate; split <;> [(split <;> simp); rfl]
@[simp] theorem withdrawLate_monitor (i : Fin 64) (s : State) : (withdrawLate i s).monitor = s.monitor := by unfold withdrawLate; split <;> [(split <;> simp); rfl]
@[simp] theorem withdrawLate_board (i : Fin 64) (s : State) : (withdrawLate i s).board = s.board := by unfold withdrawLate; split <;> [(split <;> simp); rfl]
@[simp] theorem withdrawLate_admission (i : Fin 64) (s : State) : (withdrawLate i s).admission = s.admission := by unfold withdrawLate; split <;> [(split <;> simp); rfl]
@[simp] theorem withdrawLate_closing (i : Fin 64) (s : State) : (withdrawLate i s).closing = s.closing := by unfold withdrawLate; split <;> [(split <;> simp); rfl]
@[simp] theorem withdrawLate_frame (i : Fin 64) (s : State) : (withdrawLate i s).frame = s.frame := by unfold withdrawLate; split <;> [(split <;> simp); rfl]
@[simp] theorem withdrawLate_links (i : Fin 64) (s : State) : (withdrawLate i s).links = s.links := by unfold withdrawLate; split <;> [(split <;> simp); rfl]
@[simp] theorem withdrawLate_rails (i : Fin 64) (s : State) : (withdrawLate i s).rails = s.rails := by unfold withdrawLate; split <;> [(split <;> simp); rfl]
@[simp] theorem withdrawLate_tally (i : Fin 64) (s : State) : (withdrawLate i s).tally = s.tally := by unfold withdrawLate; split <;> [(split <;> simp); rfl]
@[simp] theorem withdrawLate_resets (i : Fin 64) (s : State) : (withdrawLate i s).resets = s.resets := by unfold withdrawLate; split <;> [(split <;> simp); rfl]
@[simp] theorem withdrawWaiting_pending (i : Fin 64) (s : State) : (withdrawWaiting i s).pending = s.pending := by unfold withdrawWaiting; split <;> simp
@[simp] theorem withdrawWaiting_dram (i : Fin 64) (s : State) : (withdrawWaiting i s).dram = s.dram := by unfold withdrawWaiting; split <;> simp
@[simp] theorem withdrawWaiting_pins (i : Fin 64) (s : State) : (withdrawWaiting i s).pins = s.pins := by unfold withdrawWaiting; split <;> simp
@[simp] theorem withdrawWaiting_port (i : Fin 64) (s : State) : (withdrawWaiting i s).port = s.port := by unfold withdrawWaiting; split <;> simp
@[simp] theorem withdrawWaiting_notice (i : Fin 64) (s : State) : (withdrawWaiting i s).notice = s.notice := by unfold withdrawWaiting; split <;> simp
@[simp] theorem withdrawWaiting_start (i : Fin 64) (s : State) : (withdrawWaiting i s).start = s.start := by unfold withdrawWaiting; split <;> simp
@[simp] theorem withdrawWaiting_setup (i : Fin 64) (s : State) : (withdrawWaiting i s).setup = s.setup := by unfold withdrawWaiting; split <;> simp
@[simp] theorem withdrawWaiting_banks (i : Fin 64) (s : State) : (withdrawWaiting i s).banks = s.banks := by unfold withdrawWaiting; split <;> simp
@[simp] theorem withdrawWaiting_monitor (i : Fin 64) (s : State) : (withdrawWaiting i s).monitor = s.monitor := by unfold withdrawWaiting; split <;> simp
@[simp] theorem withdrawWaiting_closing (i : Fin 64) (s : State) : (withdrawWaiting i s).closing = s.closing := by unfold withdrawWaiting; split <;> simp
@[simp] theorem withdrawWaiting_frame (i : Fin 64) (s : State) : (withdrawWaiting i s).frame = s.frame := by unfold withdrawWaiting; split <;> simp
@[simp] theorem withdrawWaiting_links (i : Fin 64) (s : State) : (withdrawWaiting i s).links = s.links := by unfold withdrawWaiting; split <;> simp
@[simp] theorem withdrawWaiting_rails (i : Fin 64) (s : State) : (withdrawWaiting i s).rails = s.rails := by unfold withdrawWaiting; split <;> simp
@[simp] theorem withdrawWaiting_tally (i : Fin 64) (s : State) : (withdrawWaiting i s).tally = s.tally := by unfold withdrawWaiting; split <;> simp
@[simp] theorem withdrawWaiting_resets (i : Fin 64) (s : State) : (withdrawWaiting i s).resets = s.resets := by unfold withdrawWaiting; split <;> simp
@[simp] theorem beginCopy_pending (k : Scan) (s : State) : (beginCopy k s).state.pending = s.pending := rfl
@[simp] theorem handWithdraw_pending (k : Scan) (s : State) : (handWithdraw k s).state.pending = s.pending := by
  unfold handWithdraw; dsimp only; split <;> simp
@[simp] theorem beginVisit_pending (k : Scan) (s : State) : (beginVisit k s).state.pending = s.pending := by
  unfold beginVisit; split <;> simp
@[simp] theorem endTake_pending (k : Scan) (ws : List Word) (s : State) : (endTake k ws s).state.pending = s.pending := by
  simp [endTake]
@[simp] theorem endVisit_pending (k : Scan) (s : State) : (endVisit k s).state.pending = s.pending := by
  unfold endVisit; dsimp only
  split
  · simp
  · cases k.ending <;> (split <;> simp)
@[simp] theorem Visit.noted_pending (v : Visit) : v.noted.pending = v.state.pending := rfl
@[simp] theorem endScan_pending (s : State) : (endScan s).pending = s.pending := by
  unfold endScan; split <;> [(dsimp only; split_ifs <;> simp); rfl]
@[simp] theorem keepScan_pending (v : Visit) : (keepScan v).pending = v.state.pending := by
  unfold keepScan; split <;> simp
@[simp] theorem walkScan_pending (n : Nat) (s : State) : (walkScan n s).pending = s.pending := by
  induction n generalizing s with
  | zero => rfl
  | succ n ih =>
    unfold walkScan
    split
    · split_ifs <;> simp [ih]
    · rfl
@[simp] theorem beginCopy_dram (k : Scan) (s : State) : (beginCopy k s).state.dram = s.dram := rfl
@[simp] theorem handWithdraw_dram (k : Scan) (s : State) : (handWithdraw k s).state.dram = s.dram := by
  unfold handWithdraw; dsimp only; split <;> simp
@[simp] theorem beginVisit_dram (k : Scan) (s : State) : (beginVisit k s).state.dram = s.dram := by
  unfold beginVisit; split <;> simp
@[simp] theorem endTake_dram (k : Scan) (ws : List Word) (s : State) : (endTake k ws s).state.dram = s.dram := by
  simp [endTake]
@[simp] theorem endVisit_dram (k : Scan) (s : State) : (endVisit k s).state.dram = s.dram := by
  unfold endVisit; dsimp only
  split
  · simp
  · cases k.ending <;> (split <;> simp)
@[simp] theorem Visit.noted_dram (v : Visit) : v.noted.dram = v.state.dram := rfl
@[simp] theorem endScan_dram (s : State) : (endScan s).dram = s.dram := by
  unfold endScan; split <;> [(dsimp only; split_ifs <;> simp); rfl]
@[simp] theorem keepScan_dram (v : Visit) : (keepScan v).dram = v.state.dram := by
  unfold keepScan; split <;> simp
@[simp] theorem walkScan_dram (n : Nat) (s : State) : (walkScan n s).dram = s.dram := by
  induction n generalizing s with
  | zero => rfl
  | succ n ih =>
    unfold walkScan
    split
    · split_ifs <;> simp [ih]
    · rfl
@[simp] theorem beginCopy_pins (k : Scan) (s : State) : (beginCopy k s).state.pins = s.pins := rfl
@[simp] theorem handWithdraw_pins (k : Scan) (s : State) : (handWithdraw k s).state.pins = s.pins := by
  unfold handWithdraw; dsimp only; split <;> simp
@[simp] theorem beginVisit_pins (k : Scan) (s : State) : (beginVisit k s).state.pins = s.pins := by
  unfold beginVisit; split <;> simp
@[simp] theorem endTake_pins (k : Scan) (ws : List Word) (s : State) : (endTake k ws s).state.pins = s.pins := by
  simp [endTake]
@[simp] theorem endVisit_pins (k : Scan) (s : State) : (endVisit k s).state.pins = s.pins := by
  unfold endVisit; dsimp only
  split
  · simp
  · cases k.ending <;> (split <;> simp)
@[simp] theorem Visit.noted_pins (v : Visit) : v.noted.pins = v.state.pins := rfl
@[simp] theorem endScan_pins (s : State) : (endScan s).pins = s.pins := by
  unfold endScan; split <;> [(dsimp only; split_ifs <;> simp); rfl]
@[simp] theorem keepScan_pins (v : Visit) : (keepScan v).pins = v.state.pins := by
  unfold keepScan; split <;> simp
@[simp] theorem walkScan_pins (n : Nat) (s : State) : (walkScan n s).pins = s.pins := by
  induction n generalizing s with
  | zero => rfl
  | succ n ih =>
    unfold walkScan
    split
    · split_ifs <;> simp [ih]
    · rfl
@[simp] theorem beginCopy_port (k : Scan) (s : State) : (beginCopy k s).state.port = s.port := rfl
@[simp] theorem handWithdraw_port (k : Scan) (s : State) : (handWithdraw k s).state.port = s.port := by
  unfold handWithdraw; dsimp only; split <;> simp
@[simp] theorem beginVisit_port (k : Scan) (s : State) : (beginVisit k s).state.port = s.port := by
  unfold beginVisit; split <;> simp
@[simp] theorem endTake_port (k : Scan) (ws : List Word) (s : State) : (endTake k ws s).state.port = s.port := by
  simp [endTake]
@[simp] theorem endVisit_port (k : Scan) (s : State) : (endVisit k s).state.port = s.port := by
  unfold endVisit; dsimp only
  split
  · simp
  · cases k.ending <;> (split <;> simp)
@[simp] theorem Visit.noted_port (v : Visit) : v.noted.port = v.state.port := rfl
@[simp] theorem endScan_port (s : State) : (endScan s).port = s.port := by
  unfold endScan; split <;> [(dsimp only; split_ifs <;> simp); rfl]
@[simp] theorem keepScan_port (v : Visit) : (keepScan v).port = v.state.port := by
  unfold keepScan; split <;> simp
@[simp] theorem walkScan_port (n : Nat) (s : State) : (walkScan n s).port = s.port := by
  induction n generalizing s with
  | zero => rfl
  | succ n ih =>
    unfold walkScan
    split
    · split_ifs <;> simp [ih]
    · rfl
@[simp] theorem beginCopy_notice (k : Scan) (s : State) : (beginCopy k s).state.notice = s.notice := rfl
@[simp] theorem handWithdraw_notice (k : Scan) (s : State) : (handWithdraw k s).state.notice = s.notice := by
  unfold handWithdraw; dsimp only; split <;> simp
@[simp] theorem beginVisit_notice (k : Scan) (s : State) : (beginVisit k s).state.notice = s.notice := by
  unfold beginVisit; split <;> simp
@[simp] theorem endTake_notice (k : Scan) (ws : List Word) (s : State) : (endTake k ws s).state.notice = s.notice := by
  simp [endTake]
@[simp] theorem endVisit_notice (k : Scan) (s : State) : (endVisit k s).state.notice = s.notice := by
  unfold endVisit; dsimp only
  split
  · simp
  · cases k.ending <;> (split <;> simp)
@[simp] theorem Visit.noted_notice (v : Visit) : v.noted.notice = v.state.notice := rfl
@[simp] theorem endScan_notice (s : State) : (endScan s).notice = s.notice := by
  unfold endScan; split <;> [(dsimp only; split_ifs <;> simp); rfl]
@[simp] theorem keepScan_notice (v : Visit) : (keepScan v).notice = v.state.notice := by
  unfold keepScan; split <;> simp
@[simp] theorem walkScan_notice (n : Nat) (s : State) : (walkScan n s).notice = s.notice := by
  induction n generalizing s with
  | zero => rfl
  | succ n ih =>
    unfold walkScan
    split
    · split_ifs <;> simp [ih]
    · rfl
@[simp] theorem beginCopy_start (k : Scan) (s : State) : (beginCopy k s).state.start = s.start := rfl
@[simp] theorem handWithdraw_start (k : Scan) (s : State) : (handWithdraw k s).state.start = s.start := by
  unfold handWithdraw; dsimp only; split <;> simp
@[simp] theorem beginVisit_start (k : Scan) (s : State) : (beginVisit k s).state.start = s.start := by
  unfold beginVisit; split <;> simp
@[simp] theorem endTake_start (k : Scan) (ws : List Word) (s : State) : (endTake k ws s).state.start = s.start := by
  simp [endTake]
@[simp] theorem endVisit_start (k : Scan) (s : State) : (endVisit k s).state.start = s.start := by
  unfold endVisit; dsimp only
  split
  · simp
  · cases k.ending <;> (split <;> simp)
@[simp] theorem Visit.noted_start (v : Visit) : v.noted.start = v.state.start := rfl
@[simp] theorem endScan_start (s : State) : (endScan s).start = s.start := by
  unfold endScan; split <;> [(dsimp only; split_ifs <;> simp); rfl]
@[simp] theorem keepScan_start (v : Visit) : (keepScan v).start = v.state.start := by
  unfold keepScan; split <;> simp
@[simp] theorem walkScan_start (n : Nat) (s : State) : (walkScan n s).start = s.start := by
  induction n generalizing s with
  | zero => rfl
  | succ n ih =>
    unfold walkScan
    split
    · split_ifs <;> simp [ih]
    · rfl
@[simp] theorem beginCopy_setup (k : Scan) (s : State) : (beginCopy k s).state.setup = s.setup := rfl
@[simp] theorem handWithdraw_setup (k : Scan) (s : State) : (handWithdraw k s).state.setup = s.setup := by
  unfold handWithdraw; dsimp only; split <;> simp
@[simp] theorem beginVisit_setup (k : Scan) (s : State) : (beginVisit k s).state.setup = s.setup := by
  unfold beginVisit; split <;> simp
@[simp] theorem endTake_setup (k : Scan) (ws : List Word) (s : State) : (endTake k ws s).state.setup = s.setup := by
  simp [endTake]
@[simp] theorem endVisit_setup (k : Scan) (s : State) : (endVisit k s).state.setup = s.setup := by
  unfold endVisit; dsimp only
  split
  · simp
  · cases k.ending <;> (split <;> simp)
@[simp] theorem Visit.noted_setup (v : Visit) : v.noted.setup = v.state.setup := rfl
@[simp] theorem endScan_setup (s : State) : (endScan s).setup = s.setup := by
  unfold endScan; split <;> [(dsimp only; split_ifs <;> simp); rfl]
@[simp] theorem keepScan_setup (v : Visit) : (keepScan v).setup = v.state.setup := by
  unfold keepScan; split <;> simp
@[simp] theorem walkScan_setup (n : Nat) (s : State) : (walkScan n s).setup = s.setup := by
  induction n generalizing s with
  | zero => rfl
  | succ n ih =>
    unfold walkScan
    split
    · split_ifs <;> simp [ih]
    · rfl
@[simp] theorem beginCopy_banks (k : Scan) (s : State) : (beginCopy k s).state.banks = s.banks := rfl
@[simp] theorem handWithdraw_banks (k : Scan) (s : State) : (handWithdraw k s).state.banks = s.banks := by
  unfold handWithdraw; dsimp only; split <;> simp
@[simp] theorem beginVisit_banks (k : Scan) (s : State) : (beginVisit k s).state.banks = s.banks := by
  unfold beginVisit; split <;> simp
@[simp] theorem endTake_banks (k : Scan) (ws : List Word) (s : State) : (endTake k ws s).state.banks = s.banks := by
  simp [endTake]
@[simp] theorem endVisit_banks (k : Scan) (s : State) : (endVisit k s).state.banks = s.banks := by
  unfold endVisit; dsimp only
  split
  · simp
  · cases k.ending <;> (split <;> simp)
@[simp] theorem Visit.noted_banks (v : Visit) : v.noted.banks = v.state.banks := rfl
@[simp] theorem endScan_banks (s : State) : (endScan s).banks = s.banks := by
  unfold endScan; split <;> [(dsimp only; split_ifs <;> simp); rfl]
@[simp] theorem keepScan_banks (v : Visit) : (keepScan v).banks = v.state.banks := by
  unfold keepScan; split <;> simp
@[simp] theorem walkScan_banks (n : Nat) (s : State) : (walkScan n s).banks = s.banks := by
  induction n generalizing s with
  | zero => rfl
  | succ n ih =>
    unfold walkScan
    split
    · split_ifs <;> simp [ih]
    · rfl
@[simp] theorem beginCopy_monitor (k : Scan) (s : State) : (beginCopy k s).state.monitor = s.monitor := rfl
@[simp] theorem handWithdraw_monitor (k : Scan) (s : State) : (handWithdraw k s).state.monitor = s.monitor := by
  unfold handWithdraw; dsimp only; split <;> simp
@[simp] theorem beginVisit_monitor (k : Scan) (s : State) : (beginVisit k s).state.monitor = s.monitor := by
  unfold beginVisit; split <;> simp
@[simp] theorem endTake_monitor (k : Scan) (ws : List Word) (s : State) : (endTake k ws s).state.monitor = s.monitor := by
  simp [endTake]
@[simp] theorem endVisit_monitor (k : Scan) (s : State) : (endVisit k s).state.monitor = s.monitor := by
  unfold endVisit; dsimp only
  split
  · simp
  · cases k.ending <;> (split <;> simp)
@[simp] theorem Visit.noted_monitor (v : Visit) : v.noted.monitor = v.state.monitor := rfl
@[simp] theorem endScan_monitor (s : State) : (endScan s).monitor = s.monitor := by
  unfold endScan; split <;> [(dsimp only; split_ifs <;> simp); rfl]
@[simp] theorem keepScan_monitor (v : Visit) : (keepScan v).monitor = v.state.monitor := by
  unfold keepScan; split <;> simp
@[simp] theorem walkScan_monitor (n : Nat) (s : State) : (walkScan n s).monitor = s.monitor := by
  induction n generalizing s with
  | zero => rfl
  | succ n ih =>
    unfold walkScan
    split
    · split_ifs <;> simp [ih]
    · rfl
@[simp] theorem beginCopy_closing (k : Scan) (s : State) : (beginCopy k s).state.closing = s.closing := rfl
@[simp] theorem handWithdraw_closing (k : Scan) (s : State) : (handWithdraw k s).state.closing = s.closing := by
  unfold handWithdraw; dsimp only; split <;> simp
@[simp] theorem beginVisit_closing (k : Scan) (s : State) : (beginVisit k s).state.closing = s.closing := by
  unfold beginVisit; split <;> simp
@[simp] theorem endTake_closing (k : Scan) (ws : List Word) (s : State) : (endTake k ws s).state.closing = s.closing := by
  simp [endTake]
@[simp] theorem endVisit_closing (k : Scan) (s : State) : (endVisit k s).state.closing = s.closing := by
  unfold endVisit; dsimp only
  split
  · simp
  · cases k.ending <;> (split <;> simp)
@[simp] theorem Visit.noted_closing (v : Visit) : v.noted.closing = v.state.closing := rfl
@[simp] theorem endScan_closing (s : State) : (endScan s).closing = s.closing := by
  unfold endScan; split <;> [(dsimp only; split_ifs <;> simp); rfl]
@[simp] theorem keepScan_closing (v : Visit) : (keepScan v).closing = v.state.closing := by
  unfold keepScan; split <;> simp
@[simp] theorem walkScan_closing (n : Nat) (s : State) : (walkScan n s).closing = s.closing := by
  induction n generalizing s with
  | zero => rfl
  | succ n ih =>
    unfold walkScan
    split
    · split_ifs <;> simp [ih]
    · rfl
@[simp] theorem beginCopy_frame (k : Scan) (s : State) : (beginCopy k s).state.frame = s.frame := rfl
@[simp] theorem handWithdraw_frame (k : Scan) (s : State) : (handWithdraw k s).state.frame = s.frame := by
  unfold handWithdraw; dsimp only; split <;> simp
@[simp] theorem beginVisit_frame (k : Scan) (s : State) : (beginVisit k s).state.frame = s.frame := by
  unfold beginVisit; split <;> simp
@[simp] theorem endTake_frame (k : Scan) (ws : List Word) (s : State) : (endTake k ws s).state.frame = s.frame := by
  simp [endTake]
@[simp] theorem endVisit_frame (k : Scan) (s : State) : (endVisit k s).state.frame = s.frame := by
  unfold endVisit; dsimp only
  split
  · simp
  · cases k.ending <;> (split <;> simp)
@[simp] theorem Visit.noted_frame (v : Visit) : v.noted.frame = v.state.frame := rfl
@[simp] theorem endScan_frame (s : State) : (endScan s).frame = s.frame := by
  unfold endScan; split <;> [(dsimp only; split_ifs <;> simp); rfl]
@[simp] theorem keepScan_frame (v : Visit) : (keepScan v).frame = v.state.frame := by
  unfold keepScan; split <;> simp
@[simp] theorem walkScan_frame (n : Nat) (s : State) : (walkScan n s).frame = s.frame := by
  induction n generalizing s with
  | zero => rfl
  | succ n ih =>
    unfold walkScan
    split
    · split_ifs <;> simp [ih]
    · rfl
@[simp] theorem beginCopy_links (k : Scan) (s : State) : (beginCopy k s).state.links = s.links := rfl
@[simp] theorem handWithdraw_links (k : Scan) (s : State) : (handWithdraw k s).state.links = s.links := by
  unfold handWithdraw; dsimp only; split <;> simp
@[simp] theorem beginVisit_links (k : Scan) (s : State) : (beginVisit k s).state.links = s.links := by
  unfold beginVisit; split <;> simp
@[simp] theorem endTake_links (k : Scan) (ws : List Word) (s : State) : (endTake k ws s).state.links = s.links := by
  simp [endTake]
@[simp] theorem endVisit_links (k : Scan) (s : State) : (endVisit k s).state.links = s.links := by
  unfold endVisit; dsimp only
  split
  · simp
  · cases k.ending <;> (split <;> simp)
@[simp] theorem Visit.noted_links (v : Visit) : v.noted.links = v.state.links := rfl
@[simp] theorem endScan_links (s : State) : (endScan s).links = s.links := by
  unfold endScan; split <;> [(dsimp only; split_ifs <;> simp); rfl]
@[simp] theorem keepScan_links (v : Visit) : (keepScan v).links = v.state.links := by
  unfold keepScan; split <;> simp
@[simp] theorem walkScan_links (n : Nat) (s : State) : (walkScan n s).links = s.links := by
  induction n generalizing s with
  | zero => rfl
  | succ n ih =>
    unfold walkScan
    split
    · split_ifs <;> simp [ih]
    · rfl
@[simp] theorem beginCopy_rails (k : Scan) (s : State) : (beginCopy k s).state.rails = s.rails := rfl
@[simp] theorem handWithdraw_rails (k : Scan) (s : State) : (handWithdraw k s).state.rails = s.rails := by
  unfold handWithdraw; dsimp only; split <;> simp
@[simp] theorem beginVisit_rails (k : Scan) (s : State) : (beginVisit k s).state.rails = s.rails := by
  unfold beginVisit; split <;> simp
@[simp] theorem endTake_rails (k : Scan) (ws : List Word) (s : State) : (endTake k ws s).state.rails = s.rails := by
  simp [endTake]
@[simp] theorem endVisit_rails (k : Scan) (s : State) : (endVisit k s).state.rails = s.rails := by
  unfold endVisit; dsimp only
  split
  · simp
  · cases k.ending <;> (split <;> simp)
@[simp] theorem Visit.noted_rails (v : Visit) : v.noted.rails = v.state.rails := rfl
@[simp] theorem endScan_rails (s : State) : (endScan s).rails = s.rails := by
  unfold endScan; split <;> [(dsimp only; split_ifs <;> simp); rfl]
@[simp] theorem keepScan_rails (v : Visit) : (keepScan v).rails = v.state.rails := by
  unfold keepScan; split <;> simp
@[simp] theorem walkScan_rails (n : Nat) (s : State) : (walkScan n s).rails = s.rails := by
  induction n generalizing s with
  | zero => rfl
  | succ n ih =>
    unfold walkScan
    split
    · split_ifs <;> simp [ih]
    · rfl
@[simp] theorem beginCopy_tally (k : Scan) (s : State) : (beginCopy k s).state.tally = s.tally := rfl
@[simp] theorem handWithdraw_tally (k : Scan) (s : State) : (handWithdraw k s).state.tally = s.tally := by
  unfold handWithdraw; dsimp only; split <;> simp
@[simp] theorem beginVisit_tally (k : Scan) (s : State) : (beginVisit k s).state.tally = s.tally := by
  unfold beginVisit; split <;> simp
@[simp] theorem endTake_tally (k : Scan) (ws : List Word) (s : State) : (endTake k ws s).state.tally = s.tally := by
  simp [endTake]
@[simp] theorem endVisit_tally (k : Scan) (s : State) : (endVisit k s).state.tally = s.tally := by
  unfold endVisit; dsimp only
  split
  · simp
  · cases k.ending <;> (split <;> simp)
@[simp] theorem Visit.noted_tally (v : Visit) : v.noted.tally = v.state.tally := rfl
@[simp] theorem endScan_tally (s : State) : (endScan s).tally = s.tally := by
  unfold endScan; split <;> [(dsimp only; split_ifs <;> simp); rfl]
@[simp] theorem keepScan_tally (v : Visit) : (keepScan v).tally = v.state.tally := by
  unfold keepScan; split <;> simp
@[simp] theorem walkScan_tally (n : Nat) (s : State) : (walkScan n s).tally = s.tally := by
  induction n generalizing s with
  | zero => rfl
  | succ n ih =>
    unfold walkScan
    split
    · split_ifs <;> simp [ih]
    · rfl
@[simp] theorem beginCopy_resets (k : Scan) (s : State) : (beginCopy k s).state.resets = s.resets := rfl
@[simp] theorem handWithdraw_resets (k : Scan) (s : State) : (handWithdraw k s).state.resets = s.resets := by
  unfold handWithdraw; dsimp only; split <;> simp
@[simp] theorem beginVisit_resets (k : Scan) (s : State) : (beginVisit k s).state.resets = s.resets := by
  unfold beginVisit; split <;> simp
@[simp] theorem endTake_resets (k : Scan) (ws : List Word) (s : State) : (endTake k ws s).state.resets = s.resets := by
  simp [endTake]
@[simp] theorem endVisit_resets (k : Scan) (s : State) : (endVisit k s).state.resets = s.resets := by
  unfold endVisit; dsimp only
  split
  · simp
  · cases k.ending <;> (split <;> simp)
@[simp] theorem Visit.noted_resets (v : Visit) : v.noted.resets = v.state.resets := rfl
@[simp] theorem endScan_resets (s : State) : (endScan s).resets = s.resets := by
  unfold endScan; split <;> [(dsimp only; split_ifs <;> simp); rfl]
@[simp] theorem keepScan_resets (v : Visit) : (keepScan v).resets = v.state.resets := by
  unfold keepScan; split <;> simp
@[simp] theorem walkScan_resets (n : Nat) (s : State) : (walkScan n s).resets = s.resets := by
  induction n generalizing s with
  | zero => rfl
  | succ n ih =>
    unfold walkScan
    split
    · split_ifs <;> simp [ih]
    · rfl
@[simp] theorem openScan_pending (s : State) : (openScan s).pending = s.pending := by
  unfold openScan; split <;> [(split <;> simp); rfl]
@[simp] theorem openTick_pending (k : Scan) (s : State) : (openTick k s).pending = s.pending := by
  unfold openTick; split <;> [rfl; (split <;> simp)]
@[simp] theorem scanTick_pending (s : State) : (scanTick s).pending = s.pending := by
  unfold scanTick
  split <;> [rfl; skip]
  split <;> [simp; skip]
  split <;> [rfl; skip]
  split <;> (split <;> simp)
@[simp] theorem openScan_dram (s : State) : (openScan s).dram = s.dram := by
  unfold openScan; split <;> [(split <;> simp); rfl]
@[simp] theorem openTick_dram (k : Scan) (s : State) : (openTick k s).dram = s.dram := by
  unfold openTick; split <;> [rfl; (split <;> simp)]
@[simp] theorem scanTick_dram (s : State) : (scanTick s).dram = s.dram := by
  unfold scanTick
  split <;> [rfl; skip]
  split <;> [simp; skip]
  split <;> [rfl; skip]
  split <;> (split <;> simp)
@[simp] theorem openScan_pins (s : State) : (openScan s).pins = s.pins := by
  unfold openScan; split <;> [(split <;> simp); rfl]
@[simp] theorem openTick_pins (k : Scan) (s : State) : (openTick k s).pins = s.pins := by
  unfold openTick; split <;> [rfl; (split <;> simp)]
@[simp] theorem scanTick_pins (s : State) : (scanTick s).pins = s.pins := by
  unfold scanTick
  split <;> [rfl; skip]
  split <;> [simp; skip]
  split <;> [rfl; skip]
  split <;> (split <;> simp)
@[simp] theorem openScan_port (s : State) : (openScan s).port = s.port := by
  unfold openScan; split <;> [(split <;> simp); rfl]
@[simp] theorem openTick_port (k : Scan) (s : State) : (openTick k s).port = s.port := by
  unfold openTick; split <;> [rfl; (split <;> simp)]
@[simp] theorem scanTick_port (s : State) : (scanTick s).port = s.port := by
  unfold scanTick
  split <;> [rfl; skip]
  split <;> [simp; skip]
  split <;> [rfl; skip]
  split <;> (split <;> simp)
@[simp] theorem openScan_start (s : State) : (openScan s).start = s.start := by
  unfold openScan; split <;> [(split <;> simp); rfl]
@[simp] theorem openTick_start (k : Scan) (s : State) : (openTick k s).start = s.start := by
  unfold openTick; split <;> [rfl; (split <;> simp)]
@[simp] theorem scanTick_start (s : State) : (scanTick s).start = s.start := by
  unfold scanTick
  split <;> [rfl; skip]
  split <;> [simp; skip]
  split <;> [rfl; skip]
  split <;> (split <;> simp)
@[simp] theorem openScan_setup (s : State) : (openScan s).setup = s.setup := by
  unfold openScan; split <;> [(split <;> simp); rfl]
@[simp] theorem openTick_setup (k : Scan) (s : State) : (openTick k s).setup = s.setup := by
  unfold openTick; split <;> [rfl; (split <;> simp)]
@[simp] theorem scanTick_setup (s : State) : (scanTick s).setup = s.setup := by
  unfold scanTick
  split <;> [rfl; skip]
  split <;> [simp; skip]
  split <;> [rfl; skip]
  split <;> (split <;> simp)
@[simp] theorem openScan_closing (s : State) : (openScan s).closing = s.closing := by
  unfold openScan; split <;> [(split <;> simp); rfl]
@[simp] theorem openTick_closing (k : Scan) (s : State) : (openTick k s).closing = s.closing := by
  unfold openTick; split <;> [rfl; (split <;> simp)]
@[simp] theorem scanTick_closing (s : State) : (scanTick s).closing = s.closing := by
  unfold scanTick
  split <;> [rfl; skip]
  split <;> [simp; skip]
  split <;> [rfl; skip]
  split <;> (split <;> simp)
@[simp] theorem openScan_frame (s : State) : (openScan s).frame = s.frame := by
  unfold openScan; split <;> [(split <;> simp); rfl]
@[simp] theorem openTick_frame (k : Scan) (s : State) : (openTick k s).frame = s.frame := by
  unfold openTick; split <;> [rfl; (split <;> simp)]
@[simp] theorem scanTick_frame (s : State) : (scanTick s).frame = s.frame := by
  unfold scanTick
  split <;> [rfl; skip]
  split <;> [simp; skip]
  split <;> [rfl; skip]
  split <;> (split <;> simp)
@[simp] theorem openScan_links (s : State) : (openScan s).links = s.links := by
  unfold openScan; split <;> [(split <;> simp); rfl]
@[simp] theorem openTick_links (k : Scan) (s : State) : (openTick k s).links = s.links := by
  unfold openTick; split <;> [rfl; (split <;> simp)]
@[simp] theorem scanTick_links (s : State) : (scanTick s).links = s.links := by
  unfold scanTick
  split <;> [rfl; skip]
  split <;> [simp; skip]
  split <;> [rfl; skip]
  split <;> (split <;> simp)
@[simp] theorem openScan_rails (s : State) : (openScan s).rails = s.rails := by
  unfold openScan; split <;> [(split <;> simp); rfl]
@[simp] theorem openTick_rails (k : Scan) (s : State) : (openTick k s).rails = s.rails := by
  unfold openTick; split <;> [rfl; (split <;> simp)]
@[simp] theorem scanTick_rails (s : State) : (scanTick s).rails = s.rails := by
  unfold scanTick
  split <;> [rfl; skip]
  split <;> [simp; skip]
  split <;> [rfl; skip]
  split <;> (split <;> simp)
@[simp] theorem openScan_tally (s : State) : (openScan s).tally = s.tally := by
  unfold openScan; split <;> [(split <;> simp); rfl]
@[simp] theorem openTick_tally (k : Scan) (s : State) : (openTick k s).tally = s.tally := by
  unfold openTick; split <;> [rfl; (split <;> simp)]
@[simp] theorem scanTick_tally (s : State) : (scanTick s).tally = s.tally := by
  unfold scanTick
  split <;> [rfl; skip]
  split <;> [simp; skip]
  split <;> [rfl; skip]
  split <;> (split <;> simp)
@[simp] theorem openScan_resets (s : State) : (openScan s).resets = s.resets := by
  unfold openScan; split <;> [(split <;> simp); rfl]
@[simp] theorem openTick_resets (k : Scan) (s : State) : (openTick k s).resets = s.resets := by
  unfold openTick; split <;> [rfl; (split <;> simp)]
@[simp] theorem scanTick_resets (s : State) : (scanTick s).resets = s.resets := by
  unfold scanTick
  split <;> [rfl; skip]
  split <;> [simp; skip]
  split <;> [rfl; skip]
  split <;> (split <;> simp)
@[simp] theorem updateWaiting_pending (i : Fin 64) (g : Waiting → Waiting) (s : State) : (updateWaiting i g s).pending = s.pending := rfl
@[simp] theorem updateWaiting_dram (i : Fin 64) (g : Waiting → Waiting) (s : State) : (updateWaiting i g s).dram = s.dram := rfl
@[simp] theorem updateWaiting_pins (i : Fin 64) (g : Waiting → Waiting) (s : State) : (updateWaiting i g s).pins = s.pins := rfl
@[simp] theorem updateWaiting_port (i : Fin 64) (g : Waiting → Waiting) (s : State) : (updateWaiting i g s).port = s.port := rfl
@[simp] theorem updateWaiting_notice (i : Fin 64) (g : Waiting → Waiting) (s : State) : (updateWaiting i g s).notice = s.notice := rfl
@[simp] theorem updateWaiting_start (i : Fin 64) (g : Waiting → Waiting) (s : State) : (updateWaiting i g s).start = s.start := rfl
@[simp] theorem updateWaiting_setup (i : Fin 64) (g : Waiting → Waiting) (s : State) : (updateWaiting i g s).setup = s.setup := rfl
@[simp] theorem updateWaiting_banks (i : Fin 64) (g : Waiting → Waiting) (s : State) : (updateWaiting i g s).banks = s.banks := rfl
@[simp] theorem updateWaiting_monitor (i : Fin 64) (g : Waiting → Waiting) (s : State) : (updateWaiting i g s).monitor = s.monitor := rfl
@[simp] theorem updateWaiting_board (i : Fin 64) (g : Waiting → Waiting) (s : State) : (updateWaiting i g s).board = s.board := rfl
@[simp] theorem updateWaiting_lanes (i : Fin 64) (g : Waiting → Waiting) (s : State) : (updateWaiting i g s).lanes = s.lanes := rfl
@[simp] theorem updateWaiting_closing (i : Fin 64) (g : Waiting → Waiting) (s : State) : (updateWaiting i g s).closing = s.closing := rfl
@[simp] theorem updateWaiting_frame (i : Fin 64) (g : Waiting → Waiting) (s : State) : (updateWaiting i g s).frame = s.frame := rfl
@[simp] theorem updateWaiting_links (i : Fin 64) (g : Waiting → Waiting) (s : State) : (updateWaiting i g s).links = s.links := rfl
@[simp] theorem updateWaiting_rails (i : Fin 64) (g : Waiting → Waiting) (s : State) : (updateWaiting i g s).rails = s.rails := rfl
@[simp] theorem updateWaiting_tally (i : Fin 64) (g : Waiting → Waiting) (s : State) : (updateWaiting i g s).tally = s.tally := rfl
@[simp] theorem updateWaiting_resets (i : Fin 64) (g : Waiting → Waiting) (s : State) : (updateWaiting i g s).resets = s.resets := rfl
@[simp] theorem refuse_pending (i : Fin 64) (o : SlotOutcome) (m : Option Mode) (s : State) : (refuse i o m s).pending = s.pending := by simp [refuse]
@[simp] theorem refuse_dram (i : Fin 64) (o : SlotOutcome) (m : Option Mode) (s : State) : (refuse i o m s).dram = s.dram := by simp [refuse]
@[simp] theorem refuse_pins (i : Fin 64) (o : SlotOutcome) (m : Option Mode) (s : State) : (refuse i o m s).pins = s.pins := by simp [refuse]
@[simp] theorem refuse_port (i : Fin 64) (o : SlotOutcome) (m : Option Mode) (s : State) : (refuse i o m s).port = s.port := by simp [refuse]
@[simp] theorem refuse_notice (i : Fin 64) (o : SlotOutcome) (m : Option Mode) (s : State) : (refuse i o m s).notice = s.notice := by simp [refuse]
@[simp] theorem refuse_start (i : Fin 64) (o : SlotOutcome) (m : Option Mode) (s : State) : (refuse i o m s).start = s.start := by simp [refuse]
@[simp] theorem refuse_setup (i : Fin 64) (o : SlotOutcome) (m : Option Mode) (s : State) : (refuse i o m s).setup = s.setup := by simp [refuse]
@[simp] theorem refuse_banks (i : Fin 64) (o : SlotOutcome) (m : Option Mode) (s : State) : (refuse i o m s).banks = s.banks := by simp [refuse]
@[simp] theorem refuse_monitor (i : Fin 64) (o : SlotOutcome) (m : Option Mode) (s : State) : (refuse i o m s).monitor = s.monitor := by simp [refuse]
@[simp] theorem refuse_lanes (i : Fin 64) (o : SlotOutcome) (m : Option Mode) (s : State) : (refuse i o m s).lanes = s.lanes := by simp [refuse]
@[simp] theorem refuse_closing (i : Fin 64) (o : SlotOutcome) (m : Option Mode) (s : State) : (refuse i o m s).closing = s.closing := by simp [refuse]
@[simp] theorem refuse_frame (i : Fin 64) (o : SlotOutcome) (m : Option Mode) (s : State) : (refuse i o m s).frame = s.frame := by simp [refuse]
@[simp] theorem refuse_links (i : Fin 64) (o : SlotOutcome) (m : Option Mode) (s : State) : (refuse i o m s).links = s.links := by simp [refuse]
@[simp] theorem refuse_rails (i : Fin 64) (o : SlotOutcome) (m : Option Mode) (s : State) : (refuse i o m s).rails = s.rails := by simp [refuse]
@[simp] theorem refuse_tally (i : Fin 64) (o : SlotOutcome) (m : Option Mode) (s : State) : (refuse i o m s).tally = s.tally := by simp [refuse]
@[simp] theorem refuse_resets (i : Fin 64) (o : SlotOutcome) (m : Option Mode) (s : State) : (refuse i o m s).resets = s.resets := by simp [refuse]
@[simp] theorem claimLane_pending (n : Fin 32) (i : Fin 64) (m : Mode) (bank : BankId) (r : Rect) (s : State) : (claimLane n i m bank r s).pending = s.pending := by unfold claimLane; dsimp only; split_ifs <;> simp
@[simp] theorem claimLane_pins (n : Fin 32) (i : Fin 64) (m : Mode) (bank : BankId) (r : Rect) (s : State) : (claimLane n i m bank r s).pins = s.pins := by unfold claimLane; dsimp only; split_ifs <;> simp
@[simp] theorem claimLane_port (n : Fin 32) (i : Fin 64) (m : Mode) (bank : BankId) (r : Rect) (s : State) : (claimLane n i m bank r s).port = s.port := by unfold claimLane; dsimp only; split_ifs <;> simp
@[simp] theorem claimLane_start (n : Fin 32) (i : Fin 64) (m : Mode) (bank : BankId) (r : Rect) (s : State) : (claimLane n i m bank r s).start = s.start := by unfold claimLane; dsimp only; split_ifs <;> simp
@[simp] theorem claimLane_setup (n : Fin 32) (i : Fin 64) (m : Mode) (bank : BankId) (r : Rect) (s : State) : (claimLane n i m bank r s).setup = s.setup := by unfold claimLane; dsimp only; split_ifs <;> simp
@[simp] theorem claimLane_monitor (n : Fin 32) (i : Fin 64) (m : Mode) (bank : BankId) (r : Rect) (s : State) : (claimLane n i m bank r s).monitor = s.monitor := by unfold claimLane; dsimp only; split_ifs <;> simp
@[simp] theorem claimLane_resets (n : Fin 32) (i : Fin 64) (m : Mode) (bank : BankId) (r : Rect) (s : State) : (claimLane n i m bank r s).resets = s.resets := by unfold claimLane; dsimp only; split_ifs <;> simp
@[simp] theorem startFetch_pending (n : Fin 32) (s : State) : (startFetch n s).pending = s.pending := rfl
@[simp] theorem startFetch_pins (n : Fin 32) (s : State) : (startFetch n s).pins = s.pins := rfl
@[simp] theorem startFetch_port (n : Fin 32) (s : State) : (startFetch n s).port = s.port := rfl
@[simp] theorem startFetch_notice (n : Fin 32) (s : State) : (startFetch n s).notice = s.notice := rfl
@[simp] theorem startFetch_start (n : Fin 32) (s : State) : (startFetch n s).start = s.start := rfl
@[simp] theorem startFetch_setup (n : Fin 32) (s : State) : (startFetch n s).setup = s.setup := rfl
@[simp] theorem startFetch_banks (n : Fin 32) (s : State) : (startFetch n s).banks = s.banks := rfl
@[simp] theorem startFetch_monitor (n : Fin 32) (s : State) : (startFetch n s).monitor = s.monitor := rfl
@[simp] theorem startFetch_board (n : Fin 32) (s : State) : (startFetch n s).board = s.board := rfl
@[simp] theorem startFetch_admission (n : Fin 32) (s : State) : (startFetch n s).admission = s.admission := rfl
@[simp] theorem startFetch_lanes (n : Fin 32) (s : State) : (startFetch n s).lanes = s.lanes := rfl
@[simp] theorem startFetch_closing (n : Fin 32) (s : State) : (startFetch n s).closing = s.closing := rfl
@[simp] theorem startFetch_frame (n : Fin 32) (s : State) : (startFetch n s).frame = s.frame := rfl
@[simp] theorem startFetch_links (n : Fin 32) (s : State) : (startFetch n s).links = s.links := rfl
@[simp] theorem startFetch_rails (n : Fin 32) (s : State) : (startFetch n s).rails = s.rails := rfl
@[simp] theorem startFetch_tally (n : Fin 32) (s : State) : (startFetch n s).tally = s.tally := rfl
@[simp] theorem startFetch_resets (n : Fin 32) (s : State) : (startFetch n s).resets = s.resets := rfl
@[simp] theorem fetchPixel_pending (f : Fetch) (s : State) : (fetchPixel f s).pending = s.pending := by unfold fetchPixel; dsimp only; split <;> simp
@[simp] theorem fetchPixel_pins (f : Fetch) (s : State) : (fetchPixel f s).pins = s.pins := by unfold fetchPixel; dsimp only; split <;> simp
@[simp] theorem fetchPixel_port (f : Fetch) (s : State) : (fetchPixel f s).port = s.port := by unfold fetchPixel; dsimp only; split <;> simp
@[simp] theorem fetchPixel_notice (f : Fetch) (s : State) : (fetchPixel f s).notice = s.notice := by unfold fetchPixel; dsimp only; split <;> simp
@[simp] theorem fetchPixel_start (f : Fetch) (s : State) : (fetchPixel f s).start = s.start := by unfold fetchPixel; dsimp only; split <;> simp
@[simp] theorem fetchPixel_setup (f : Fetch) (s : State) : (fetchPixel f s).setup = s.setup := by unfold fetchPixel; dsimp only; split <;> simp
@[simp] theorem fetchPixel_banks (f : Fetch) (s : State) : (fetchPixel f s).banks = s.banks := by unfold fetchPixel; dsimp only; split <;> simp
@[simp] theorem fetchPixel_monitor (f : Fetch) (s : State) : (fetchPixel f s).monitor = s.monitor := by unfold fetchPixel; dsimp only; split <;> simp
@[simp] theorem fetchPixel_board (f : Fetch) (s : State) : (fetchPixel f s).board = s.board := by unfold fetchPixel; dsimp only; split <;> simp
@[simp] theorem fetchPixel_closing (f : Fetch) (s : State) : (fetchPixel f s).closing = s.closing := by unfold fetchPixel; dsimp only; split <;> simp
@[simp] theorem fetchPixel_frame (f : Fetch) (s : State) : (fetchPixel f s).frame = s.frame := by unfold fetchPixel; dsimp only; split <;> simp
@[simp] theorem fetchPixel_links (f : Fetch) (s : State) : (fetchPixel f s).links = s.links := by unfold fetchPixel; dsimp only; split <;> simp
@[simp] theorem fetchPixel_rails (f : Fetch) (s : State) : (fetchPixel f s).rails = s.rails := by unfold fetchPixel; dsimp only; split <;> simp
@[simp] theorem fetchPixel_tally (f : Fetch) (s : State) : (fetchPixel f s).tally = s.tally := by unfold fetchPixel; dsimp only; split <;> simp
@[simp] theorem fetchPixel_resets (f : Fetch) (s : State) : (fetchPixel f s).resets = s.resets := by unfold fetchPixel; dsimp only; split <;> simp
@[simp] theorem fetchTick_pending (s : State) : (fetchTick s).pending = s.pending := by unfold fetchTick; split <;> [(split <;> simp); rfl]
@[simp] theorem fetchTick_pins (s : State) : (fetchTick s).pins = s.pins := by unfold fetchTick; split <;> [(split <;> simp); rfl]
@[simp] theorem fetchTick_port (s : State) : (fetchTick s).port = s.port := by unfold fetchTick; split <;> [(split <;> simp); rfl]
@[simp] theorem fetchTick_notice (s : State) : (fetchTick s).notice = s.notice := by unfold fetchTick; split <;> [(split <;> simp); rfl]
@[simp] theorem fetchTick_start (s : State) : (fetchTick s).start = s.start := by unfold fetchTick; split <;> [(split <;> simp); rfl]
@[simp] theorem fetchTick_setup (s : State) : (fetchTick s).setup = s.setup := by unfold fetchTick; split <;> [(split <;> simp); rfl]
@[simp] theorem fetchTick_banks (s : State) : (fetchTick s).banks = s.banks := by unfold fetchTick; split <;> [(split <;> simp); rfl]
@[simp] theorem fetchTick_monitor (s : State) : (fetchTick s).monitor = s.monitor := by unfold fetchTick; split <;> [(split <;> simp); rfl]
@[simp] theorem fetchTick_board (s : State) : (fetchTick s).board = s.board := by unfold fetchTick; split <;> [(split <;> simp); rfl]
@[simp] theorem fetchTick_closing (s : State) : (fetchTick s).closing = s.closing := by unfold fetchTick; split <;> [(split <;> simp); rfl]
@[simp] theorem fetchTick_frame (s : State) : (fetchTick s).frame = s.frame := by unfold fetchTick; split <;> [(split <;> simp); rfl]
@[simp] theorem fetchTick_links (s : State) : (fetchTick s).links = s.links := by unfold fetchTick; split <;> [(split <;> simp); rfl]
@[simp] theorem fetchTick_rails (s : State) : (fetchTick s).rails = s.rails := by unfold fetchTick; split <;> [(split <;> simp); rfl]
@[simp] theorem fetchTick_tally (s : State) : (fetchTick s).tally = s.tally := by unfold fetchTick; split <;> [(split <;> simp); rfl]
@[simp] theorem fetchTick_resets (s : State) : (fetchTick s).resets = s.resets := by unfold fetchTick; split <;> [(split <;> simp); rfl]
@[simp] theorem fetchPixels_pending (n : Nat) (s : State) : (fetchPixels n s).pending = s.pending := by
  induction n generalizing s with
  | zero => rfl
  | succ n ih => rw [fetchPixels, ih, fetchTick_pending]
@[simp] theorem fetchPixels_pins (n : Nat) (s : State) : (fetchPixels n s).pins = s.pins := by
  induction n generalizing s with
  | zero => rfl
  | succ n ih => rw [fetchPixels, ih, fetchTick_pins]
@[simp] theorem fetchPixels_port (n : Nat) (s : State) : (fetchPixels n s).port = s.port := by
  induction n generalizing s with
  | zero => rfl
  | succ n ih => rw [fetchPixels, ih, fetchTick_port]
@[simp] theorem fetchPixels_notice (n : Nat) (s : State) : (fetchPixels n s).notice = s.notice := by
  induction n generalizing s with
  | zero => rfl
  | succ n ih => rw [fetchPixels, ih, fetchTick_notice]
@[simp] theorem fetchPixels_start (n : Nat) (s : State) : (fetchPixels n s).start = s.start := by
  induction n generalizing s with
  | zero => rfl
  | succ n ih => rw [fetchPixels, ih, fetchTick_start]
@[simp] theorem fetchPixels_setup (n : Nat) (s : State) : (fetchPixels n s).setup = s.setup := by
  induction n generalizing s with
  | zero => rfl
  | succ n ih => rw [fetchPixels, ih, fetchTick_setup]
@[simp] theorem fetchPixels_banks (n : Nat) (s : State) : (fetchPixels n s).banks = s.banks := by
  induction n generalizing s with
  | zero => rfl
  | succ n ih => rw [fetchPixels, ih, fetchTick_banks]
@[simp] theorem fetchPixels_monitor (n : Nat) (s : State) : (fetchPixels n s).monitor = s.monitor := by
  induction n generalizing s with
  | zero => rfl
  | succ n ih => rw [fetchPixels, ih, fetchTick_monitor]
@[simp] theorem fetchPixels_board (n : Nat) (s : State) : (fetchPixels n s).board = s.board := by
  induction n generalizing s with
  | zero => rfl
  | succ n ih => rw [fetchPixels, ih, fetchTick_board]
@[simp] theorem fetchPixels_closing (n : Nat) (s : State) : (fetchPixels n s).closing = s.closing := by
  induction n generalizing s with
  | zero => rfl
  | succ n ih => rw [fetchPixels, ih, fetchTick_closing]
@[simp] theorem fetchPixels_frame (n : Nat) (s : State) : (fetchPixels n s).frame = s.frame := by
  induction n generalizing s with
  | zero => rfl
  | succ n ih => rw [fetchPixels, ih, fetchTick_frame]
@[simp] theorem fetchPixels_links (n : Nat) (s : State) : (fetchPixels n s).links = s.links := by
  induction n generalizing s with
  | zero => rfl
  | succ n ih => rw [fetchPixels, ih, fetchTick_links]
@[simp] theorem fetchPixels_rails (n : Nat) (s : State) : (fetchPixels n s).rails = s.rails := by
  induction n generalizing s with
  | zero => rfl
  | succ n ih => rw [fetchPixels, ih, fetchTick_rails]
@[simp] theorem fetchPixels_tally (n : Nat) (s : State) : (fetchPixels n s).tally = s.tally := by
  induction n generalizing s with
  | zero => rfl
  | succ n ih => rw [fetchPixels, ih, fetchTick_tally]
@[simp] theorem fetchPixels_resets (n : Nat) (s : State) : (fetchPixels n s).resets = s.resets := by
  induction n generalizing s with
  | zero => rfl
  | succ n ih => rw [fetchPixels, ih, fetchTick_resets]
@[simp] theorem fetchRest_pending (s : State) : (fetchRest s).pending = s.pending := by unfold fetchRest; split <;> simp
@[simp] theorem fetchRest_pins (s : State) : (fetchRest s).pins = s.pins := by unfold fetchRest; split <;> simp
@[simp] theorem fetchRest_port (s : State) : (fetchRest s).port = s.port := by unfold fetchRest; split <;> simp
@[simp] theorem fetchRest_notice (s : State) : (fetchRest s).notice = s.notice := by unfold fetchRest; split <;> simp
@[simp] theorem fetchRest_start (s : State) : (fetchRest s).start = s.start := by unfold fetchRest; split <;> simp
@[simp] theorem fetchRest_setup (s : State) : (fetchRest s).setup = s.setup := by unfold fetchRest; split <;> simp
@[simp] theorem fetchRest_banks (s : State) : (fetchRest s).banks = s.banks := by unfold fetchRest; split <;> simp
@[simp] theorem fetchRest_monitor (s : State) : (fetchRest s).monitor = s.monitor := by unfold fetchRest; split <;> simp
@[simp] theorem fetchRest_board (s : State) : (fetchRest s).board = s.board := by unfold fetchRest; split <;> simp
@[simp] theorem fetchRest_closing (s : State) : (fetchRest s).closing = s.closing := by unfold fetchRest; split <;> simp
@[simp] theorem fetchRest_frame (s : State) : (fetchRest s).frame = s.frame := by unfold fetchRest; split <;> simp
@[simp] theorem fetchRest_links (s : State) : (fetchRest s).links = s.links := by unfold fetchRest; split <;> simp
@[simp] theorem fetchRest_rails (s : State) : (fetchRest s).rails = s.rails := by unfold fetchRest; split <;> simp
@[simp] theorem fetchRest_tally (s : State) : (fetchRest s).tally = s.tally := by unfold fetchRest; split <;> simp
@[simp] theorem fetchRest_resets (s : State) : (fetchRest s).resets = s.resets := by unfold fetchRest; split <;> simp
@[simp] theorem toStep_pending (x : Exam) (e : ExamStep) (s : State) : (toStep x e s).pending = s.pending := rfl
@[simp] theorem toStep_dram (x : Exam) (e : ExamStep) (s : State) : (toStep x e s).dram = s.dram := rfl
@[simp] theorem toStep_pins (x : Exam) (e : ExamStep) (s : State) : (toStep x e s).pins = s.pins := rfl
@[simp] theorem toStep_port (x : Exam) (e : ExamStep) (s : State) : (toStep x e s).port = s.port := rfl
@[simp] theorem toStep_notice (x : Exam) (e : ExamStep) (s : State) : (toStep x e s).notice = s.notice := rfl
@[simp] theorem toStep_start (x : Exam) (e : ExamStep) (s : State) : (toStep x e s).start = s.start := rfl
@[simp] theorem toStep_setup (x : Exam) (e : ExamStep) (s : State) : (toStep x e s).setup = s.setup := rfl
@[simp] theorem toStep_banks (x : Exam) (e : ExamStep) (s : State) : (toStep x e s).banks = s.banks := rfl
@[simp] theorem toStep_monitor (x : Exam) (e : ExamStep) (s : State) : (toStep x e s).monitor = s.monitor := rfl
@[simp] theorem toStep_board (x : Exam) (e : ExamStep) (s : State) : (toStep x e s).board = s.board := rfl
@[simp] theorem toStep_lanes (x : Exam) (e : ExamStep) (s : State) : (toStep x e s).lanes = s.lanes := rfl
@[simp] theorem toStep_closing (x : Exam) (e : ExamStep) (s : State) : (toStep x e s).closing = s.closing := rfl
@[simp] theorem toStep_frame (x : Exam) (e : ExamStep) (s : State) : (toStep x e s).frame = s.frame := rfl
@[simp] theorem toStep_links (x : Exam) (e : ExamStep) (s : State) : (toStep x e s).links = s.links := rfl
@[simp] theorem toStep_rails (x : Exam) (e : ExamStep) (s : State) : (toStep x e s).rails = s.rails := rfl
@[simp] theorem toStep_tally (x : Exam) (e : ExamStep) (s : State) : (toStep x e s).tally = s.tally := rfl
@[simp] theorem toStep_resets (x : Exam) (e : ExamStep) (s : State) : (toStep x e s).resets = s.resets := rfl
@[simp] theorem clipStep_pending (i : Fin 64) (s : State) : (clipStep i s).pending = s.pending := by unfold clipStep; dsimp only; split <;> simp
@[simp] theorem clipStep_dram (i : Fin 64) (s : State) : (clipStep i s).dram = s.dram := by unfold clipStep; dsimp only; split <;> simp
@[simp] theorem clipStep_pins (i : Fin 64) (s : State) : (clipStep i s).pins = s.pins := by unfold clipStep; dsimp only; split <;> simp
@[simp] theorem clipStep_port (i : Fin 64) (s : State) : (clipStep i s).port = s.port := by unfold clipStep; dsimp only; split <;> simp
@[simp] theorem clipStep_notice (i : Fin 64) (s : State) : (clipStep i s).notice = s.notice := by unfold clipStep; dsimp only; split <;> simp
@[simp] theorem clipStep_start (i : Fin 64) (s : State) : (clipStep i s).start = s.start := by unfold clipStep; dsimp only; split <;> simp
@[simp] theorem clipStep_setup (i : Fin 64) (s : State) : (clipStep i s).setup = s.setup := by unfold clipStep; dsimp only; split <;> simp
@[simp] theorem clipStep_banks (i : Fin 64) (s : State) : (clipStep i s).banks = s.banks := by unfold clipStep; dsimp only; split <;> simp
@[simp] theorem clipStep_monitor (i : Fin 64) (s : State) : (clipStep i s).monitor = s.monitor := by unfold clipStep; dsimp only; split <;> simp
@[simp] theorem clipStep_lanes (i : Fin 64) (s : State) : (clipStep i s).lanes = s.lanes := by unfold clipStep; dsimp only; split <;> simp
@[simp] theorem clipStep_closing (i : Fin 64) (s : State) : (clipStep i s).closing = s.closing := by unfold clipStep; dsimp only; split <;> simp
@[simp] theorem clipStep_frame (i : Fin 64) (s : State) : (clipStep i s).frame = s.frame := by unfold clipStep; dsimp only; split <;> simp
@[simp] theorem clipStep_links (i : Fin 64) (s : State) : (clipStep i s).links = s.links := by unfold clipStep; dsimp only; split <;> simp
@[simp] theorem clipStep_rails (i : Fin 64) (s : State) : (clipStep i s).rails = s.rails := by unfold clipStep; dsimp only; split <;> simp
@[simp] theorem clipStep_tally (i : Fin 64) (s : State) : (clipStep i s).tally = s.tally := by unfold clipStep; dsimp only; split <;> simp
@[simp] theorem clipStep_resets (i : Fin 64) (s : State) : (clipStep i s).resets = s.resets := by unfold clipStep; dsimp only; split <;> simp
@[simp] theorem gateStep_pending (x : Exam) (s : State) : (gateStep x s).pending = s.pending := by unfold gateStep; split <;> simp
@[simp] theorem gateStep_dram (x : Exam) (s : State) : (gateStep x s).dram = s.dram := by unfold gateStep; split <;> simp
@[simp] theorem gateStep_pins (x : Exam) (s : State) : (gateStep x s).pins = s.pins := by unfold gateStep; split <;> simp
@[simp] theorem gateStep_port (x : Exam) (s : State) : (gateStep x s).port = s.port := by unfold gateStep; split <;> simp
@[simp] theorem gateStep_notice (x : Exam) (s : State) : (gateStep x s).notice = s.notice := by unfold gateStep; split <;> simp
@[simp] theorem gateStep_start (x : Exam) (s : State) : (gateStep x s).start = s.start := by unfold gateStep; split <;> simp
@[simp] theorem gateStep_setup (x : Exam) (s : State) : (gateStep x s).setup = s.setup := by unfold gateStep; split <;> simp
@[simp] theorem gateStep_banks (x : Exam) (s : State) : (gateStep x s).banks = s.banks := by unfold gateStep; split <;> simp
@[simp] theorem gateStep_monitor (x : Exam) (s : State) : (gateStep x s).monitor = s.monitor := by unfold gateStep; split <;> simp
@[simp] theorem gateStep_lanes (x : Exam) (s : State) : (gateStep x s).lanes = s.lanes := by unfold gateStep; split <;> simp
@[simp] theorem gateStep_closing (x : Exam) (s : State) : (gateStep x s).closing = s.closing := by unfold gateStep; split <;> simp
@[simp] theorem gateStep_frame (x : Exam) (s : State) : (gateStep x s).frame = s.frame := by unfold gateStep; split <;> simp
@[simp] theorem gateStep_links (x : Exam) (s : State) : (gateStep x s).links = s.links := by unfold gateStep; split <;> simp
@[simp] theorem gateStep_rails (x : Exam) (s : State) : (gateStep x s).rails = s.rails := by unfold gateStep; split <;> simp
@[simp] theorem gateStep_tally (x : Exam) (s : State) : (gateStep x s).tally = s.tally := by unfold gateStep; split <;> simp
@[simp] theorem gateStep_resets (x : Exam) (s : State) : (gateStep x s).resets = s.resets := by unfold gateStep; split <;> simp
@[simp] theorem ledgerStep_pending (x : Exam) (n : Nat) (a : List Mode) (l : List (Nat × Nat)) (g : LedgerReading) (s : State) : (ledgerStep x n a l g s).pending = s.pending := by simp [ledgerStep]
@[simp] theorem ledgerStep_pins (x : Exam) (n : Nat) (a : List Mode) (l : List (Nat × Nat)) (g : LedgerReading) (s : State) : (ledgerStep x n a l g s).pins = s.pins := by simp [ledgerStep]
@[simp] theorem ledgerStep_port (x : Exam) (n : Nat) (a : List Mode) (l : List (Nat × Nat)) (g : LedgerReading) (s : State) : (ledgerStep x n a l g s).port = s.port := by simp [ledgerStep]
@[simp] theorem ledgerStep_notice (x : Exam) (n : Nat) (a : List Mode) (l : List (Nat × Nat)) (g : LedgerReading) (s : State) : (ledgerStep x n a l g s).notice = s.notice := by simp [ledgerStep]
@[simp] theorem ledgerStep_start (x : Exam) (n : Nat) (a : List Mode) (l : List (Nat × Nat)) (g : LedgerReading) (s : State) : (ledgerStep x n a l g s).start = s.start := by simp [ledgerStep]
@[simp] theorem ledgerStep_setup (x : Exam) (n : Nat) (a : List Mode) (l : List (Nat × Nat)) (g : LedgerReading) (s : State) : (ledgerStep x n a l g s).setup = s.setup := by simp [ledgerStep]
@[simp] theorem ledgerStep_banks (x : Exam) (n : Nat) (a : List Mode) (l : List (Nat × Nat)) (g : LedgerReading) (s : State) : (ledgerStep x n a l g s).banks = s.banks := by simp [ledgerStep]
@[simp] theorem ledgerStep_monitor (x : Exam) (n : Nat) (a : List Mode) (l : List (Nat × Nat)) (g : LedgerReading) (s : State) : (ledgerStep x n a l g s).monitor = s.monitor := by simp [ledgerStep]
@[simp] theorem ledgerStep_board (x : Exam) (n : Nat) (a : List Mode) (l : List (Nat × Nat)) (g : LedgerReading) (s : State) : (ledgerStep x n a l g s).board = s.board := by simp [ledgerStep]
@[simp] theorem ledgerStep_lanes (x : Exam) (n : Nat) (a : List Mode) (l : List (Nat × Nat)) (g : LedgerReading) (s : State) : (ledgerStep x n a l g s).lanes = s.lanes := by simp [ledgerStep]
@[simp] theorem ledgerStep_closing (x : Exam) (n : Nat) (a : List Mode) (l : List (Nat × Nat)) (g : LedgerReading) (s : State) : (ledgerStep x n a l g s).closing = s.closing := by simp [ledgerStep]
@[simp] theorem ledgerStep_frame (x : Exam) (n : Nat) (a : List Mode) (l : List (Nat × Nat)) (g : LedgerReading) (s : State) : (ledgerStep x n a l g s).frame = s.frame := by simp [ledgerStep]
@[simp] theorem ledgerStep_links (x : Exam) (n : Nat) (a : List Mode) (l : List (Nat × Nat)) (g : LedgerReading) (s : State) : (ledgerStep x n a l g s).links = s.links := by simp [ledgerStep]
@[simp] theorem ledgerStep_rails (x : Exam) (n : Nat) (a : List Mode) (l : List (Nat × Nat)) (g : LedgerReading) (s : State) : (ledgerStep x n a l g s).rails = s.rails := by simp [ledgerStep]
@[simp] theorem ledgerStep_tally (x : Exam) (n : Nat) (a : List Mode) (l : List (Nat × Nat)) (g : LedgerReading) (s : State) : (ledgerStep x n a l g s).tally = s.tally := by simp [ledgerStep]
@[simp] theorem ledgerStep_resets (x : Exam) (n : Nat) (a : List Mode) (l : List (Nat × Nat)) (g : LedgerReading) (s : State) : (ledgerStep x n a l g s).resets = s.resets := by simp [ledgerStep]
@[simp] theorem modeStep_pending (x : Exam) (a : List Mode) (g : LedgerReading) (s : State) : (modeStep x a g s).pending = s.pending := by unfold modeStep; dsimp only; split <;> simp
@[simp] theorem modeStep_dram (x : Exam) (a : List Mode) (g : LedgerReading) (s : State) : (modeStep x a g s).dram = s.dram := by unfold modeStep; dsimp only; split <;> simp
@[simp] theorem modeStep_pins (x : Exam) (a : List Mode) (g : LedgerReading) (s : State) : (modeStep x a g s).pins = s.pins := by unfold modeStep; dsimp only; split <;> simp
@[simp] theorem modeStep_port (x : Exam) (a : List Mode) (g : LedgerReading) (s : State) : (modeStep x a g s).port = s.port := by unfold modeStep; dsimp only; split <;> simp
@[simp] theorem modeStep_notice (x : Exam) (a : List Mode) (g : LedgerReading) (s : State) : (modeStep x a g s).notice = s.notice := by unfold modeStep; dsimp only; split <;> simp
@[simp] theorem modeStep_start (x : Exam) (a : List Mode) (g : LedgerReading) (s : State) : (modeStep x a g s).start = s.start := by unfold modeStep; dsimp only; split <;> simp
@[simp] theorem modeStep_setup (x : Exam) (a : List Mode) (g : LedgerReading) (s : State) : (modeStep x a g s).setup = s.setup := by unfold modeStep; dsimp only; split <;> simp
@[simp] theorem modeStep_banks (x : Exam) (a : List Mode) (g : LedgerReading) (s : State) : (modeStep x a g s).banks = s.banks := by unfold modeStep; dsimp only; split <;> simp
@[simp] theorem modeStep_monitor (x : Exam) (a : List Mode) (g : LedgerReading) (s : State) : (modeStep x a g s).monitor = s.monitor := by unfold modeStep; dsimp only; split <;> simp
@[simp] theorem modeStep_lanes (x : Exam) (a : List Mode) (g : LedgerReading) (s : State) : (modeStep x a g s).lanes = s.lanes := by unfold modeStep; dsimp only; split <;> simp
@[simp] theorem modeStep_closing (x : Exam) (a : List Mode) (g : LedgerReading) (s : State) : (modeStep x a g s).closing = s.closing := by unfold modeStep; dsimp only; split <;> simp
@[simp] theorem modeStep_frame (x : Exam) (a : List Mode) (g : LedgerReading) (s : State) : (modeStep x a g s).frame = s.frame := by unfold modeStep; dsimp only; split <;> simp
@[simp] theorem modeStep_links (x : Exam) (a : List Mode) (g : LedgerReading) (s : State) : (modeStep x a g s).links = s.links := by unfold modeStep; dsimp only; split <;> simp
@[simp] theorem modeStep_rails (x : Exam) (a : List Mode) (g : LedgerReading) (s : State) : (modeStep x a g s).rails = s.rails := by unfold modeStep; dsimp only; split <;> simp
@[simp] theorem modeStep_tally (x : Exam) (a : List Mode) (g : LedgerReading) (s : State) : (modeStep x a g s).tally = s.tally := by unfold modeStep; dsimp only; split <;> simp
@[simp] theorem modeStep_resets (x : Exam) (a : List Mode) (g : LedgerReading) (s : State) : (modeStep x a g s).resets = s.resets := by unfold modeStep; dsimp only; split <;> simp
@[simp] theorem placeStep_pending (x : Exam) (m : Mode) (s : State) : (placeStep x m s).pending = s.pending := by unfold placeStep; split <;> [simp; (split <;> simp)]
@[simp] theorem placeStep_dram (x : Exam) (m : Mode) (s : State) : (placeStep x m s).dram = s.dram := by unfold placeStep; split <;> [simp; (split <;> simp)]
@[simp] theorem placeStep_pins (x : Exam) (m : Mode) (s : State) : (placeStep x m s).pins = s.pins := by unfold placeStep; split <;> [simp; (split <;> simp)]
@[simp] theorem placeStep_port (x : Exam) (m : Mode) (s : State) : (placeStep x m s).port = s.port := by unfold placeStep; split <;> [simp; (split <;> simp)]
@[simp] theorem placeStep_notice (x : Exam) (m : Mode) (s : State) : (placeStep x m s).notice = s.notice := by unfold placeStep; split <;> [simp; (split <;> simp)]
@[simp] theorem placeStep_start (x : Exam) (m : Mode) (s : State) : (placeStep x m s).start = s.start := by unfold placeStep; split <;> [simp; (split <;> simp)]
@[simp] theorem placeStep_setup (x : Exam) (m : Mode) (s : State) : (placeStep x m s).setup = s.setup := by unfold placeStep; split <;> [simp; (split <;> simp)]
@[simp] theorem placeStep_banks (x : Exam) (m : Mode) (s : State) : (placeStep x m s).banks = s.banks := by unfold placeStep; split <;> [simp; (split <;> simp)]
@[simp] theorem placeStep_monitor (x : Exam) (m : Mode) (s : State) : (placeStep x m s).monitor = s.monitor := by unfold placeStep; split <;> [simp; (split <;> simp)]
@[simp] theorem placeStep_board (x : Exam) (m : Mode) (s : State) : (placeStep x m s).board = s.board := by unfold placeStep; split <;> [simp; (split <;> simp)]
@[simp] theorem placeStep_lanes (x : Exam) (m : Mode) (s : State) : (placeStep x m s).lanes = s.lanes := by unfold placeStep; split <;> [simp; (split <;> simp)]
@[simp] theorem placeStep_closing (x : Exam) (m : Mode) (s : State) : (placeStep x m s).closing = s.closing := by unfold placeStep; split <;> [simp; (split <;> simp)]
@[simp] theorem placeStep_frame (x : Exam) (m : Mode) (s : State) : (placeStep x m s).frame = s.frame := by unfold placeStep; split <;> [simp; (split <;> simp)]
@[simp] theorem placeStep_links (x : Exam) (m : Mode) (s : State) : (placeStep x m s).links = s.links := by unfold placeStep; split <;> [simp; (split <;> simp)]
@[simp] theorem placeStep_rails (x : Exam) (m : Mode) (s : State) : (placeStep x m s).rails = s.rails := by unfold placeStep; split <;> [simp; (split <;> simp)]
@[simp] theorem placeStep_tally (x : Exam) (m : Mode) (s : State) : (placeStep x m s).tally = s.tally := by unfold placeStep; split <;> [simp; (split <;> simp)]
@[simp] theorem placeStep_resets (x : Exam) (m : Mode) (s : State) : (placeStep x m s).resets = s.resets := by unfold placeStep; split <;> [simp; (split <;> simp)]
@[simp] theorem claimStep_pending (x : Exam) (m : Mode) (n : Fin 32) (s : State) : (claimStep x m n s).pending = s.pending := by
  unfold claimStep; dsimp only
  split
  · simp
  · split
    · simp
    · split
      · simp
      · split
        · simp
        · split
          · simp
          · split <;> simp
@[simp] theorem claimStep_pins (x : Exam) (m : Mode) (n : Fin 32) (s : State) : (claimStep x m n s).pins = s.pins := by
  unfold claimStep; dsimp only
  split
  · simp
  · split
    · simp
    · split
      · simp
      · split
        · simp
        · split
          · simp
          · split <;> simp
@[simp] theorem claimStep_port (x : Exam) (m : Mode) (n : Fin 32) (s : State) : (claimStep x m n s).port = s.port := by
  unfold claimStep; dsimp only
  split
  · simp
  · split
    · simp
    · split
      · simp
      · split
        · simp
        · split
          · simp
          · split <;> simp
@[simp] theorem claimStep_start (x : Exam) (m : Mode) (n : Fin 32) (s : State) : (claimStep x m n s).start = s.start := by
  unfold claimStep; dsimp only
  split
  · simp
  · split
    · simp
    · split
      · simp
      · split
        · simp
        · split
          · simp
          · split <;> simp
@[simp] theorem claimStep_setup (x : Exam) (m : Mode) (n : Fin 32) (s : State) : (claimStep x m n s).setup = s.setup := by
  unfold claimStep; dsimp only
  split
  · simp
  · split
    · simp
    · split
      · simp
      · split
        · simp
        · split
          · simp
          · split <;> simp
@[simp] theorem claimStep_monitor (x : Exam) (m : Mode) (n : Fin 32) (s : State) : (claimStep x m n s).monitor = s.monitor := by
  unfold claimStep; dsimp only
  split
  · simp
  · split
    · simp
    · split
      · simp
      · split
        · simp
        · split
          · simp
          · split <;> simp
@[simp] theorem claimStep_resets (x : Exam) (m : Mode) (n : Fin 32) (s : State) : (claimStep x m n s).resets = s.resets := by
  unfold claimStep; dsimp only
  split
  · simp
  · split
    · simp
    · split
      · simp
      · split
        · simp
        · split
          · simp
          · split <;> simp
@[simp] theorem probeStep_pending (x : Exam) (m : Mode) (n : Fin 32) (s : State) : (probeStep x m n s).pending = s.pending := by unfold probeStep; split <;> split <;> simp
@[simp] theorem probeStep_pins (x : Exam) (m : Mode) (n : Fin 32) (s : State) : (probeStep x m n s).pins = s.pins := by unfold probeStep; split <;> split <;> simp
@[simp] theorem probeStep_port (x : Exam) (m : Mode) (n : Fin 32) (s : State) : (probeStep x m n s).port = s.port := by unfold probeStep; split <;> split <;> simp
@[simp] theorem probeStep_start (x : Exam) (m : Mode) (n : Fin 32) (s : State) : (probeStep x m n s).start = s.start := by unfold probeStep; split <;> split <;> simp
@[simp] theorem probeStep_setup (x : Exam) (m : Mode) (n : Fin 32) (s : State) : (probeStep x m n s).setup = s.setup := by unfold probeStep; split <;> split <;> simp
@[simp] theorem probeStep_monitor (x : Exam) (m : Mode) (n : Fin 32) (s : State) : (probeStep x m n s).monitor = s.monitor := by unfold probeStep; split <;> split <;> simp
@[simp] theorem probeStep_resets (x : Exam) (m : Mode) (n : Fin 32) (s : State) : (probeStep x m n s).resets = s.resets := by unfold probeStep; split <;> split <;> simp
@[simp] theorem examStep_pending (w : Bool) (s : State) : (examStep w s).pending = s.pending := by unfold examStep; split <;> [rfl; (split <;> simp)]
@[simp] theorem examStep_pins (w : Bool) (s : State) : (examStep w s).pins = s.pins := by unfold examStep; split <;> [rfl; (split <;> simp)]
@[simp] theorem examStep_port (w : Bool) (s : State) : (examStep w s).port = s.port := by unfold examStep; split <;> [rfl; (split <;> simp)]
@[simp] theorem examStep_start (w : Bool) (s : State) : (examStep w s).start = s.start := by unfold examStep; split <;> [rfl; (split <;> simp)]
@[simp] theorem examStep_setup (w : Bool) (s : State) : (examStep w s).setup = s.setup := by unfold examStep; split <;> [rfl; (split <;> simp)]
@[simp] theorem examStep_monitor (w : Bool) (s : State) : (examStep w s).monitor = s.monitor := by unfold examStep; split <;> [rfl; (split <;> simp)]
@[simp] theorem examStep_resets (w : Bool) (s : State) : (examStep w s).resets = s.resets := by unfold examStep; split <;> [rfl; (split <;> simp)]
@[simp] theorem examSteps_pending (n : Nat) (s : State) : (examSteps n s).pending = s.pending := by
  induction n generalizing s with
  | zero => rfl
  | succ n ih => rw [examSteps, ih, examStep_pending]
@[simp] theorem examSteps_pins (n : Nat) (s : State) : (examSteps n s).pins = s.pins := by
  induction n generalizing s with
  | zero => rfl
  | succ n ih => rw [examSteps, ih, examStep_pins]
@[simp] theorem examSteps_port (n : Nat) (s : State) : (examSteps n s).port = s.port := by
  induction n generalizing s with
  | zero => rfl
  | succ n ih => rw [examSteps, ih, examStep_port]
@[simp] theorem examSteps_start (n : Nat) (s : State) : (examSteps n s).start = s.start := by
  induction n generalizing s with
  | zero => rfl
  | succ n ih => rw [examSteps, ih, examStep_start]
@[simp] theorem examSteps_setup (n : Nat) (s : State) : (examSteps n s).setup = s.setup := by
  induction n generalizing s with
  | zero => rfl
  | succ n ih => rw [examSteps, ih, examStep_setup]
@[simp] theorem examSteps_monitor (n : Nat) (s : State) : (examSteps n s).monitor = s.monitor := by
  induction n generalizing s with
  | zero => rfl
  | succ n ih => rw [examSteps, ih, examStep_monitor]
@[simp] theorem examSteps_resets (n : Nat) (s : State) : (examSteps n s).resets = s.resets := by
  induction n generalizing s with
  | zero => rfl
  | succ n ih => rw [examSteps, ih, examStep_resets]
@[simp] theorem examRest_pending (s : State) : (examRest s).pending = s.pending := examSteps_pending _ s
@[simp] theorem examRest_pins (s : State) : (examRest s).pins = s.pins := examSteps_pins _ s
@[simp] theorem examRest_port (s : State) : (examRest s).port = s.port := examSteps_port _ s
@[simp] theorem examRest_start (s : State) : (examRest s).start = s.start := examSteps_start _ s
@[simp] theorem examRest_setup (s : State) : (examRest s).setup = s.setup := examSteps_setup _ s
@[simp] theorem examRest_monitor (s : State) : (examRest s).monitor = s.monitor := examSteps_monitor _ s
@[simp] theorem examRest_resets (s : State) : (examRest s).resets = s.resets := examSteps_resets _ s
@[simp] theorem endPass_pending (s : State) : (endPass s).pending = s.pending := by unfold endPass; dsimp only; split <;> simp
@[simp] theorem endPass_dram (s : State) : (endPass s).dram = s.dram := by unfold endPass; dsimp only; split <;> simp
@[simp] theorem endPass_pins (s : State) : (endPass s).pins = s.pins := by unfold endPass; dsimp only; split <;> simp
@[simp] theorem endPass_port (s : State) : (endPass s).port = s.port := by unfold endPass; dsimp only; split <;> simp
@[simp] theorem endPass_notice (s : State) : (endPass s).notice = s.notice := by unfold endPass; dsimp only; split <;> simp
@[simp] theorem endPass_start (s : State) : (endPass s).start = s.start := by unfold endPass; dsimp only; split <;> simp
@[simp] theorem endPass_setup (s : State) : (endPass s).setup = s.setup := by unfold endPass; dsimp only; split <;> simp
@[simp] theorem endPass_banks (s : State) : (endPass s).banks = s.banks := by unfold endPass; dsimp only; split <;> simp
@[simp] theorem endPass_monitor (s : State) : (endPass s).monitor = s.monitor := by unfold endPass; dsimp only; split <;> simp
@[simp] theorem endPass_board (s : State) : (endPass s).board = s.board := by unfold endPass; dsimp only; split <;> simp
@[simp] theorem endPass_lanes (s : State) : (endPass s).lanes = s.lanes := by unfold endPass; dsimp only; split <;> simp
@[simp] theorem endPass_closing (s : State) : (endPass s).closing = s.closing := by unfold endPass; dsimp only; split <;> simp
@[simp] theorem endPass_frame (s : State) : (endPass s).frame = s.frame := by unfold endPass; dsimp only; split <;> simp
@[simp] theorem endPass_links (s : State) : (endPass s).links = s.links := by unfold endPass; dsimp only; split <;> simp
@[simp] theorem endPass_rails (s : State) : (endPass s).rails = s.rails := by unfold endPass; dsimp only; split <;> simp
@[simp] theorem endPass_tally (s : State) : (endPass s).tally = s.tally := by unfold endPass; dsimp only; split <;> simp
@[simp] theorem endPass_resets (s : State) : (endPass s).resets = s.resets := by unfold endPass; dsimp only; split <;> simp
@[simp] theorem walkList_pending (n : Nat) (s : State) : (walkList n s).pending = s.pending := by
  induction n generalizing s with
  | zero => exact endPass_pending s
  | succ n ih =>
    simp only [walkList]
    split
    · simp
    · split <;> simp [ih]
@[simp] theorem walkList_pins (n : Nat) (s : State) : (walkList n s).pins = s.pins := by
  induction n generalizing s with
  | zero => exact endPass_pins s
  | succ n ih =>
    simp only [walkList]
    split
    · simp
    · split <;> simp [ih]
@[simp] theorem walkList_port (n : Nat) (s : State) : (walkList n s).port = s.port := by
  induction n generalizing s with
  | zero => exact endPass_port s
  | succ n ih =>
    simp only [walkList]
    split
    · simp
    · split <;> simp [ih]
@[simp] theorem walkList_start (n : Nat) (s : State) : (walkList n s).start = s.start := by
  induction n generalizing s with
  | zero => exact endPass_start s
  | succ n ih =>
    simp only [walkList]
    split
    · simp
    · split <;> simp [ih]
@[simp] theorem walkList_setup (n : Nat) (s : State) : (walkList n s).setup = s.setup := by
  induction n generalizing s with
  | zero => exact endPass_setup s
  | succ n ih =>
    simp only [walkList]
    split
    · simp
    · split <;> simp [ih]
@[simp] theorem walkList_monitor (n : Nat) (s : State) : (walkList n s).monitor = s.monitor := by
  induction n generalizing s with
  | zero => exact endPass_monitor s
  | succ n ih =>
    simp only [walkList]
    split
    · simp
    · split <;> simp [ih]
@[simp] theorem walkList_resets (n : Nat) (s : State) : (walkList n s).resets = s.resets := by
  induction n generalizing s with
  | zero => exact endPass_resets s
  | succ n ih =>
    simp only [walkList]
    split
    · simp
    · split <;> simp [ih]
@[simp] theorem continuePass_pending (s : State) : (continuePass s).pending = s.pending := by simp [continuePass]
@[simp] theorem continuePass_pins (s : State) : (continuePass s).pins = s.pins := by simp [continuePass]
@[simp] theorem continuePass_port (s : State) : (continuePass s).port = s.port := by simp [continuePass]
@[simp] theorem continuePass_start (s : State) : (continuePass s).start = s.start := by simp [continuePass]
@[simp] theorem continuePass_setup (s : State) : (continuePass s).setup = s.setup := by simp [continuePass]
@[simp] theorem continuePass_monitor (s : State) : (continuePass s).monitor = s.monitor := by simp [continuePass]
@[simp] theorem continuePass_resets (s : State) : (continuePass s).resets = s.resets := by simp [continuePass]
@[simp] theorem passTick_pending (s : State) : (passTick s).pending = s.pending := by
  unfold passTick
  split <;> [rfl; skip]
  split <;> [simp; skip]
  split <;> [skip; rfl]
  split <;> [(split <;> simp); rfl]
@[simp] theorem passTick_pins (s : State) : (passTick s).pins = s.pins := by
  unfold passTick
  split <;> [rfl; skip]
  split <;> [simp; skip]
  split <;> [skip; rfl]
  split <;> [(split <;> simp); rfl]
@[simp] theorem passTick_port (s : State) : (passTick s).port = s.port := by
  unfold passTick
  split <;> [rfl; skip]
  split <;> [simp; skip]
  split <;> [skip; rfl]
  split <;> [(split <;> simp); rfl]
@[simp] theorem passTick_start (s : State) : (passTick s).start = s.start := by
  unfold passTick
  split <;> [rfl; skip]
  split <;> [simp; skip]
  split <;> [skip; rfl]
  split <;> [(split <;> simp); rfl]
@[simp] theorem passTick_setup (s : State) : (passTick s).setup = s.setup := by
  unfold passTick
  split <;> [rfl; skip]
  split <;> [simp; skip]
  split <;> [skip; rfl]
  split <;> [(split <;> simp); rfl]
@[simp] theorem passTick_monitor (s : State) : (passTick s).monitor = s.monitor := by
  unfold passTick
  split <;> [rfl; skip]
  split <;> [simp; skip]
  split <;> [skip; rfl]
  split <;> [(split <;> simp); rfl]
@[simp] theorem passTick_resets (s : State) : (passTick s).resets = s.resets := by
  unfold passTick
  split <;> [rfl; skip]
  split <;> [simp; skip]
  split <;> [skip; rfl]
  split <;> [(split <;> simp); rfl]
@[simp] theorem passWork_pending (s : State) : (passWork s).pending = s.pending := by unfold passWork; dsimp only; split_ifs <;> simp
@[simp] theorem passWork_pins (s : State) : (passWork s).pins = s.pins := by unfold passWork; dsimp only; split_ifs <;> simp
@[simp] theorem passWork_port (s : State) : (passWork s).port = s.port := by unfold passWork; dsimp only; split_ifs <;> simp
@[simp] theorem passWork_start (s : State) : (passWork s).start = s.start := by unfold passWork; dsimp only; split_ifs <;> simp
@[simp] theorem passWork_setup (s : State) : (passWork s).setup = s.setup := by unfold passWork; dsimp only; split_ifs <;> simp
@[simp] theorem passWork_monitor (s : State) : (passWork s).monitor = s.monitor := by unfold passWork; dsimp only; split_ifs <;> simp
@[simp] theorem passWork_resets (s : State) : (passWork s).resets = s.resets := by unfold passWork; dsimp only; split_ifs <;> simp
@[simp] theorem armLane_pending (n : Fin 32) (s : State) : (armLane n s).pending = s.pending := by unfold armLane; split <;> simp
@[simp] theorem armLane_dram (n : Fin 32) (s : State) : (armLane n s).dram = s.dram := by unfold armLane; split <;> simp
@[simp] theorem armLane_pins (n : Fin 32) (s : State) : (armLane n s).pins = s.pins := by unfold armLane; split <;> simp
@[simp] theorem armLane_port (n : Fin 32) (s : State) : (armLane n s).port = s.port := by unfold armLane; split <;> simp
@[simp] theorem armLane_notice (n : Fin 32) (s : State) : (armLane n s).notice = s.notice := by unfold armLane; split <;> simp
@[simp] theorem armLane_start (n : Fin 32) (s : State) : (armLane n s).start = s.start := by unfold armLane; split <;> simp
@[simp] theorem armLane_setup (n : Fin 32) (s : State) : (armLane n s).setup = s.setup := by unfold armLane; split <;> simp
@[simp] theorem armLane_banks (n : Fin 32) (s : State) : (armLane n s).banks = s.banks := by unfold armLane; split <;> simp
@[simp] theorem armLane_monitor (n : Fin 32) (s : State) : (armLane n s).monitor = s.monitor := by unfold armLane; split <;> simp
@[simp] theorem armLane_board (n : Fin 32) (s : State) : (armLane n s).board = s.board := by unfold armLane; split <;> simp
@[simp] theorem armLane_admission (n : Fin 32) (s : State) : (armLane n s).admission = s.admission := by unfold armLane; split <;> simp
@[simp] theorem armLane_frame (n : Fin 32) (s : State) : (armLane n s).frame = s.frame := by unfold armLane; split <;> simp
@[simp] theorem armLane_links (n : Fin 32) (s : State) : (armLane n s).links = s.links := by unfold armLane; split <;> simp
@[simp] theorem armLane_rails (n : Fin 32) (s : State) : (armLane n s).rails = s.rails := by unfold armLane; split <;> simp
@[simp] theorem armLane_tally (n : Fin 32) (s : State) : (armLane n s).tally = s.tally := by unfold armLane; split <;> simp
@[simp] theorem armLane_resets (n : Fin 32) (s : State) : (armLane n s).resets = s.resets := by unfold armLane; split <;> simp
@[simp] theorem leaveFetch_pending (s : State) : (leaveFetch s).pending = s.pending := rfl
@[simp] theorem leaveFetch_dram (s : State) : (leaveFetch s).dram = s.dram := rfl
@[simp] theorem leaveFetch_pins (s : State) : (leaveFetch s).pins = s.pins := rfl
@[simp] theorem leaveFetch_port (s : State) : (leaveFetch s).port = s.port := rfl
@[simp] theorem leaveFetch_notice (s : State) : (leaveFetch s).notice = s.notice := rfl
@[simp] theorem leaveFetch_start (s : State) : (leaveFetch s).start = s.start := rfl
@[simp] theorem leaveFetch_setup (s : State) : (leaveFetch s).setup = s.setup := rfl
@[simp] theorem leaveFetch_banks (s : State) : (leaveFetch s).banks = s.banks := rfl
@[simp] theorem leaveFetch_monitor (s : State) : (leaveFetch s).monitor = s.monitor := rfl
@[simp] theorem leaveFetch_board (s : State) : (leaveFetch s).board = s.board := rfl
@[simp] theorem leaveFetch_lanes (s : State) : (leaveFetch s).lanes = s.lanes := rfl
@[simp] theorem leaveFetch_closing (s : State) : (leaveFetch s).closing = s.closing := rfl
@[simp] theorem leaveFetch_frame (s : State) : (leaveFetch s).frame = s.frame := rfl
@[simp] theorem leaveFetch_links (s : State) : (leaveFetch s).links = s.links := rfl
@[simp] theorem leaveFetch_rails (s : State) : (leaveFetch s).rails = s.rails := rfl
@[simp] theorem leaveFetch_tally (s : State) : (leaveFetch s).tally = s.tally := rfl
@[simp] theorem leaveFetch_resets (s : State) : (leaveFetch s).resets = s.resets := rfl
@[simp] theorem boundaryPass_pending (p q : PassPlace) (s : State) : (boundaryPass p q s).pending = s.pending := by unfold boundaryPass; split_ifs <;> simp
@[simp] theorem boundaryPass_pins (p q : PassPlace) (s : State) : (boundaryPass p q s).pins = s.pins := by unfold boundaryPass; split_ifs <;> simp
@[simp] theorem boundaryPass_port (p q : PassPlace) (s : State) : (boundaryPass p q s).port = s.port := by unfold boundaryPass; split_ifs <;> simp
@[simp] theorem boundaryPass_start (p q : PassPlace) (s : State) : (boundaryPass p q s).start = s.start := by unfold boundaryPass; split_ifs <;> simp
@[simp] theorem boundaryPass_setup (p q : PassPlace) (s : State) : (boundaryPass p q s).setup = s.setup := by unfold boundaryPass; split_ifs <;> simp
@[simp] theorem boundaryPass_monitor (p q : PassPlace) (s : State) : (boundaryPass p q s).monitor = s.monitor := by unfold boundaryPass; split_ifs <;> simp
@[simp] theorem boundaryPass_resets (p q : PassPlace) (s : State) : (boundaryPass p q s).resets = s.resets := by unfold boundaryPass; split_ifs <;> simp
@[simp] theorem boundaryWork_pending (o : BoundaryOrder) (s : State) : (boundaryWork o s).pending = s.pending := by unfold boundaryWork; dsimp only; split <;> simp
@[simp] theorem boundaryWork_pins (o : BoundaryOrder) (s : State) : (boundaryWork o s).pins = s.pins := by unfold boundaryWork; dsimp only; split <;> simp
@[simp] theorem boundaryWork_port (o : BoundaryOrder) (s : State) : (boundaryWork o s).port = s.port := by unfold boundaryWork; dsimp only; split <;> simp
@[simp] theorem boundaryWork_start (o : BoundaryOrder) (s : State) : (boundaryWork o s).start = s.start := by unfold boundaryWork; dsimp only; split <;> simp
@[simp] theorem boundaryWork_setup (o : BoundaryOrder) (s : State) : (boundaryWork o s).setup = s.setup := by unfold boundaryWork; dsimp only; split <;> simp
@[simp] theorem boundaryWork_monitor (o : BoundaryOrder) (s : State) : (boundaryWork o s).monitor = s.monitor := by unfold boundaryWork; dsimp only; split <;> simp
@[simp] theorem boundaryWork_resets (o : BoundaryOrder) (s : State) : (boundaryWork o s).resets = s.resets := by unfold boundaryWork; dsimp only; split <;> simp
@[simp] theorem boardTick_pending (s : State) : (boardTick s).pending = s.pending := by
  unfold boardTick
  split
  · split_ifs <;> simp
  · split <;> rfl
  · rfl
@[simp] theorem boardTick_pins (s : State) : (boardTick s).pins = s.pins := by
  unfold boardTick
  split
  · split_ifs <;> simp
  · split <;> rfl
  · rfl
@[simp] theorem boardTick_start (s : State) : (boardTick s).start = s.start := by
  unfold boardTick
  split
  · split_ifs <;> simp
  · split <;> rfl
  · rfl
@[simp] theorem boardTick_setup (s : State) : (boardTick s).setup = s.setup := by
  unfold boardTick
  split
  · split_ifs <;> simp
  · split <;> rfl
  · rfl
@[simp] theorem boardTick_monitor (s : State) : (boardTick s).monitor = s.monitor := by
  unfold boardTick
  split
  · split_ifs <;> simp
  · split <;> rfl
  · rfl
@[simp] theorem boardTick_resets (s : State) : (boardTick s).resets = s.resets := by
  unfold boardTick
  split
  · split_ifs <;> simp
  · split <;> rfl
  · rfl
@[simp] theorem startTick_pending (s : State) : (startTick s).pending = s.pending := by unfold startTick; split <;> [(split <;> rfl); rfl]
@[simp] theorem startTick_dram (s : State) : (startTick s).dram = s.dram := by unfold startTick; split <;> [(split <;> rfl); rfl]
@[simp] theorem startTick_pins (s : State) : (startTick s).pins = s.pins := by unfold startTick; split <;> [(split <;> rfl); rfl]
@[simp] theorem startTick_port (s : State) : (startTick s).port = s.port := by unfold startTick; split <;> [(split <;> rfl); rfl]
@[simp] theorem startTick_notice (s : State) : (startTick s).notice = s.notice := by unfold startTick; split <;> [(split <;> rfl); rfl]
@[simp] theorem startTick_setup (s : State) : (startTick s).setup = s.setup := by unfold startTick; split <;> [(split <;> rfl); rfl]
@[simp] theorem startTick_banks (s : State) : (startTick s).banks = s.banks := by unfold startTick; split <;> [(split <;> rfl); rfl]
@[simp] theorem startTick_monitor (s : State) : (startTick s).monitor = s.monitor := by unfold startTick; split <;> [(split <;> rfl); rfl]
@[simp] theorem startTick_board (s : State) : (startTick s).board = s.board := by unfold startTick; split <;> [(split <;> rfl); rfl]
@[simp] theorem startTick_admission (s : State) : (startTick s).admission = s.admission := by unfold startTick; split <;> [(split <;> rfl); rfl]
@[simp] theorem startTick_lanes (s : State) : (startTick s).lanes = s.lanes := by unfold startTick; split <;> [(split <;> rfl); rfl]
@[simp] theorem startTick_closing (s : State) : (startTick s).closing = s.closing := by unfold startTick; split <;> [(split <;> rfl); rfl]
@[simp] theorem startTick_frame (s : State) : (startTick s).frame = s.frame := by unfold startTick; split <;> [(split <;> rfl); rfl]
@[simp] theorem startTick_links (s : State) : (startTick s).links = s.links := by unfold startTick; split <;> [(split <;> rfl); rfl]
@[simp] theorem startTick_rails (s : State) : (startTick s).rails = s.rails := by unfold startTick; split <;> [(split <;> rfl); rfl]
@[simp] theorem startTick_tally (s : State) : (startTick s).tally = s.tally := by unfold startTick; split <;> [(split <;> rfl); rfl]
@[simp] theorem startTick_resets (s : State) : (startTick s).resets = s.resets := by unfold startTick; split <;> [(split <;> rfl); rfl]
@[simp] theorem resyncBoard_pending (s : State) : (resyncBoard s).pending = s.pending := by
  have h : ∀ (l : List (Fin 64)) (s : State), (l.foldl resyncSlot s).pending = s.pending :=
    fun l s => foldl_keeps State.pending _ (fun s a => by simp [resyncSlot]) l s
  simp [resyncBoard, h]
@[simp] theorem resyncBoard_pins (s : State) : (resyncBoard s).pins = s.pins := by
  have h : ∀ (l : List (Fin 64)) (s : State), (l.foldl resyncSlot s).pins = s.pins :=
    fun l s => foldl_keeps State.pins _ (fun s a => by simp [resyncSlot]) l s
  simp [resyncBoard, h]
@[simp] theorem resyncBoard_start (s : State) : (resyncBoard s).start = s.start := by
  have h : ∀ (l : List (Fin 64)) (s : State), (l.foldl resyncSlot s).start = s.start :=
    fun l s => foldl_keeps State.start _ (fun s a => by simp [resyncSlot]) l s
  simp [resyncBoard, h]
@[simp] theorem resyncBoard_setup (s : State) : (resyncBoard s).setup = s.setup := by
  have h : ∀ (l : List (Fin 64)) (s : State), (l.foldl resyncSlot s).setup = s.setup :=
    fun l s => foldl_keeps State.setup _ (fun s a => by simp [resyncSlot]) l s
  simp [resyncBoard, h]
@[simp] theorem resyncBoard_banks (s : State) : (resyncBoard s).banks = s.banks := by
  have h : ∀ (l : List (Fin 64)) (s : State), (l.foldl resyncSlot s).banks = s.banks :=
    fun l s => foldl_keeps State.banks _ (fun s a => by simp [resyncSlot]) l s
  simp [resyncBoard, h]
@[simp] theorem resyncBoard_monitor (s : State) : (resyncBoard s).monitor = s.monitor := by
  have h : ∀ (l : List (Fin 64)) (s : State), (l.foldl resyncSlot s).monitor = s.monitor :=
    fun l s => foldl_keeps State.monitor _ (fun s a => by simp [resyncSlot]) l s
  simp [resyncBoard, h]
@[simp] theorem resyncBoard_admission (s : State) : (resyncBoard s).admission = s.admission := by
  have h : ∀ (l : List (Fin 64)) (s : State), (l.foldl resyncSlot s).admission = s.admission :=
    fun l s => foldl_keeps State.admission _ (fun s a => by simp [resyncSlot]) l s
  simp [resyncBoard, h]
@[simp] theorem resyncBoard_lanes (s : State) : (resyncBoard s).lanes = s.lanes := by
  have h : ∀ (l : List (Fin 64)) (s : State), (l.foldl resyncSlot s).lanes = s.lanes :=
    fun l s => foldl_keeps State.lanes _ (fun s a => by simp [resyncSlot]) l s
  simp [resyncBoard, h]
@[simp] theorem resyncBoard_closing (s : State) : (resyncBoard s).closing = s.closing := by
  have h : ∀ (l : List (Fin 64)) (s : State), (l.foldl resyncSlot s).closing = s.closing :=
    fun l s => foldl_keeps State.closing _ (fun s a => by simp [resyncSlot]) l s
  simp [resyncBoard, h]
@[simp] theorem resyncBoard_frame (s : State) : (resyncBoard s).frame = s.frame := by
  have h : ∀ (l : List (Fin 64)) (s : State), (l.foldl resyncSlot s).frame = s.frame :=
    fun l s => foldl_keeps State.frame _ (fun s a => by simp [resyncSlot]) l s
  simp [resyncBoard, h]
@[simp] theorem resyncBoard_links (s : State) : (resyncBoard s).links = s.links := by
  have h : ∀ (l : List (Fin 64)) (s : State), (l.foldl resyncSlot s).links = s.links :=
    fun l s => foldl_keeps State.links _ (fun s a => by simp [resyncSlot]) l s
  simp [resyncBoard, h]
@[simp] theorem resyncBoard_rails (s : State) : (resyncBoard s).rails = s.rails := by
  have h : ∀ (l : List (Fin 64)) (s : State), (l.foldl resyncSlot s).rails = s.rails :=
    fun l s => foldl_keeps State.rails _ (fun s a => by simp [resyncSlot]) l s
  simp [resyncBoard, h]
@[simp] theorem resyncBoard_tally (s : State) : (resyncBoard s).tally = s.tally := by
  have h : ∀ (l : List (Fin 64)) (s : State), (l.foldl resyncSlot s).tally = s.tally :=
    fun l s => foldl_keeps State.tally _ (fun s a => by simp [resyncSlot]) l s
  simp [resyncBoard, h]
@[simp] theorem resyncBoard_resets (s : State) : (resyncBoard s).resets = s.resets := by
  have h : ∀ (l : List (Fin 64)) (s : State), (l.foldl resyncSlot s).resets = s.resets :=
    fun l s => foldl_keeps State.resets _ (fun s a => by simp [resyncSlot]) l s
  simp [resyncBoard, h]
@[simp] theorem captureWrite_pending (a : Nat) (s : State) : (captureWrite a s).pending = s.pending := by unfold captureWrite; dsimp only; split <;> simp
@[simp] theorem captureWrite_dram (a : Nat) (s : State) : (captureWrite a s).dram = s.dram := by unfold captureWrite; dsimp only; split <;> simp
@[simp] theorem captureWrite_pins (a : Nat) (s : State) : (captureWrite a s).pins = s.pins := by unfold captureWrite; dsimp only; split <;> simp
@[simp] theorem captureWrite_start (a : Nat) (s : State) : (captureWrite a s).start = s.start := by unfold captureWrite; dsimp only; split <;> simp
@[simp] theorem captureWrite_setup (a : Nat) (s : State) : (captureWrite a s).setup = s.setup := by unfold captureWrite; dsimp only; split <;> simp
@[simp] theorem captureWrite_banks (a : Nat) (s : State) : (captureWrite a s).banks = s.banks := by unfold captureWrite; dsimp only; split <;> simp
@[simp] theorem captureWrite_monitor (a : Nat) (s : State) : (captureWrite a s).monitor = s.monitor := by unfold captureWrite; dsimp only; split <;> simp
@[simp] theorem captureWrite_admission (a : Nat) (s : State) : (captureWrite a s).admission = s.admission := by unfold captureWrite; dsimp only; split <;> simp
@[simp] theorem captureWrite_lanes (a : Nat) (s : State) : (captureWrite a s).lanes = s.lanes := by unfold captureWrite; dsimp only; split <;> simp
@[simp] theorem captureWrite_closing (a : Nat) (s : State) : (captureWrite a s).closing = s.closing := by unfold captureWrite; dsimp only; split <;> simp
@[simp] theorem captureWrite_frame (a : Nat) (s : State) : (captureWrite a s).frame = s.frame := by unfold captureWrite; dsimp only; split <;> simp
@[simp] theorem captureWrite_links (a : Nat) (s : State) : (captureWrite a s).links = s.links := by unfold captureWrite; dsimp only; split <;> simp
@[simp] theorem captureWrite_rails (a : Nat) (s : State) : (captureWrite a s).rails = s.rails := by unfold captureWrite; dsimp only; split <;> simp
@[simp] theorem captureWrite_tally (a : Nat) (s : State) : (captureWrite a s).tally = s.tally := by unfold captureWrite; dsimp only; split <;> simp
@[simp] theorem captureWrite_resets (a : Nat) (s : State) : (captureWrite a s).resets = s.resets := by unfold captureWrite; dsimp only; split <;> simp
@[simp] theorem clearCauses_pending (v : Word) (s : State) : (clearCauses v s).pending = s.pending := by unfold clearCauses; dsimp only; split <;> simp
@[simp] theorem clearCauses_dram (v : Word) (s : State) : (clearCauses v s).dram = s.dram := by unfold clearCauses; dsimp only; split <;> simp
@[simp] theorem clearCauses_pins (v : Word) (s : State) : (clearCauses v s).pins = s.pins := by unfold clearCauses; dsimp only; split <;> simp
@[simp] theorem clearCauses_start (v : Word) (s : State) : (clearCauses v s).start = s.start := by unfold clearCauses; dsimp only; split <;> simp
@[simp] theorem clearCauses_setup (v : Word) (s : State) : (clearCauses v s).setup = s.setup := by unfold clearCauses; dsimp only; split <;> simp
@[simp] theorem clearCauses_banks (v : Word) (s : State) : (clearCauses v s).banks = s.banks := by unfold clearCauses; dsimp only; split <;> simp
@[simp] theorem clearCauses_monitor (v : Word) (s : State) : (clearCauses v s).monitor = s.monitor := by unfold clearCauses; dsimp only; split <;> simp
@[simp] theorem clearCauses_admission (v : Word) (s : State) : (clearCauses v s).admission = s.admission := by unfold clearCauses; dsimp only; split <;> simp
@[simp] theorem clearCauses_lanes (v : Word) (s : State) : (clearCauses v s).lanes = s.lanes := by unfold clearCauses; dsimp only; split <;> simp
@[simp] theorem clearCauses_closing (v : Word) (s : State) : (clearCauses v s).closing = s.closing := by unfold clearCauses; dsimp only; split <;> simp
@[simp] theorem clearCauses_frame (v : Word) (s : State) : (clearCauses v s).frame = s.frame := by unfold clearCauses; dsimp only; split <;> simp
@[simp] theorem clearCauses_links (v : Word) (s : State) : (clearCauses v s).links = s.links := by unfold clearCauses; dsimp only; split <;> simp
@[simp] theorem clearCauses_rails (v : Word) (s : State) : (clearCauses v s).rails = s.rails := by unfold clearCauses; dsimp only; split <;> simp
@[simp] theorem clearCauses_tally (v : Word) (s : State) : (clearCauses v s).tally = s.tally := by unfold clearCauses; dsimp only; split <;> simp
@[simp] theorem clearCauses_resets (v : Word) (s : State) : (clearCauses v s).resets = s.resets := by unfold clearCauses; dsimp only; split <;> simp
@[simp] theorem reloadBand_pending (s : State) : (reloadBand s).pending = s.pending := by unfold reloadBand; split <;> simp
@[simp] theorem reloadBand_dram (s : State) : (reloadBand s).dram = s.dram := by unfold reloadBand; split <;> simp
@[simp] theorem reloadBand_pins (s : State) : (reloadBand s).pins = s.pins := by unfold reloadBand; split <;> simp
@[simp] theorem reloadBand_port (s : State) : (reloadBand s).port = s.port := by unfold reloadBand; split <;> simp
@[simp] theorem reloadBand_notice (s : State) : (reloadBand s).notice = s.notice := by unfold reloadBand; split <;> simp
@[simp] theorem reloadBand_start (s : State) : (reloadBand s).start = s.start := by unfold reloadBand; split <;> simp
@[simp] theorem reloadBand_setup (s : State) : (reloadBand s).setup = s.setup := by unfold reloadBand; split <;> simp
@[simp] theorem reloadBand_monitor (s : State) : (reloadBand s).monitor = s.monitor := by unfold reloadBand; split <;> simp
@[simp] theorem reloadBand_admission (s : State) : (reloadBand s).admission = s.admission := by unfold reloadBand; split <;> simp
@[simp] theorem reloadBand_lanes (s : State) : (reloadBand s).lanes = s.lanes := by unfold reloadBand; split <;> simp
@[simp] theorem reloadBand_closing (s : State) : (reloadBand s).closing = s.closing := by unfold reloadBand; split <;> simp
@[simp] theorem reloadBand_frame (s : State) : (reloadBand s).frame = s.frame := by unfold reloadBand; split <;> simp
@[simp] theorem reloadBand_links (s : State) : (reloadBand s).links = s.links := by unfold reloadBand; split <;> simp
@[simp] theorem reloadBand_rails (s : State) : (reloadBand s).rails = s.rails := by unfold reloadBand; split <;> simp
@[simp] theorem reloadBand_tally (s : State) : (reloadBand s).tally = s.tally := by unfold reloadBand; split <;> simp
@[simp] theorem reloadBand_resets (s : State) : (reloadBand s).resets = s.resets := by unfold reloadBand; split <;> simp
@[simp] theorem haltScan_pending (s : State) : (haltScan s).pending = s.pending := by unfold haltScan; dsimp only; split <;> [rfl; (split_ifs <;> [rfl; rfl; rfl; (split <;> rfl)])]
@[simp] theorem haltScan_dram (s : State) : (haltScan s).dram = s.dram := by unfold haltScan; dsimp only; split <;> [rfl; (split_ifs <;> [rfl; rfl; rfl; (split <;> rfl)])]
@[simp] theorem haltScan_pins (s : State) : (haltScan s).pins = s.pins := by unfold haltScan; dsimp only; split <;> [rfl; (split_ifs <;> [rfl; rfl; rfl; (split <;> rfl)])]
@[simp] theorem haltScan_port (s : State) : (haltScan s).port = s.port := by unfold haltScan; dsimp only; split <;> [rfl; (split_ifs <;> [rfl; rfl; rfl; (split <;> rfl)])]
@[simp] theorem haltScan_notice (s : State) : (haltScan s).notice = s.notice := by unfold haltScan; dsimp only; split <;> [rfl; (split_ifs <;> [rfl; rfl; rfl; (split <;> rfl)])]
@[simp] theorem haltScan_start (s : State) : (haltScan s).start = s.start := by unfold haltScan; dsimp only; split <;> [rfl; (split_ifs <;> [rfl; rfl; rfl; (split <;> rfl)])]
@[simp] theorem haltScan_setup (s : State) : (haltScan s).setup = s.setup := by unfold haltScan; dsimp only; split <;> [rfl; (split_ifs <;> [rfl; rfl; rfl; (split <;> rfl)])]
@[simp] theorem haltScan_banks (s : State) : (haltScan s).banks = s.banks := by unfold haltScan; dsimp only; split <;> [rfl; (split_ifs <;> [rfl; rfl; rfl; (split <;> rfl)])]
@[simp] theorem haltScan_monitor (s : State) : (haltScan s).monitor = s.monitor := by unfold haltScan; dsimp only; split <;> [rfl; (split_ifs <;> [rfl; rfl; rfl; (split <;> rfl)])]
@[simp] theorem haltScan_admission (s : State) : (haltScan s).admission = s.admission := by unfold haltScan; dsimp only; split <;> [rfl; (split_ifs <;> [rfl; rfl; rfl; (split <;> rfl)])]
@[simp] theorem haltScan_lanes (s : State) : (haltScan s).lanes = s.lanes := by unfold haltScan; dsimp only; split <;> [rfl; (split_ifs <;> [rfl; rfl; rfl; (split <;> rfl)])]
@[simp] theorem haltScan_closing (s : State) : (haltScan s).closing = s.closing := by unfold haltScan; dsimp only; split <;> [rfl; (split_ifs <;> [rfl; rfl; rfl; (split <;> rfl)])]
@[simp] theorem haltScan_frame (s : State) : (haltScan s).frame = s.frame := by unfold haltScan; dsimp only; split <;> [rfl; (split_ifs <;> [rfl; rfl; rfl; (split <;> rfl)])]
@[simp] theorem haltScan_links (s : State) : (haltScan s).links = s.links := by unfold haltScan; dsimp only; split <;> [rfl; (split_ifs <;> [rfl; rfl; rfl; (split <;> rfl)])]
@[simp] theorem haltScan_rails (s : State) : (haltScan s).rails = s.rails := by unfold haltScan; dsimp only; split <;> [rfl; (split_ifs <;> [rfl; rfl; rfl; (split <;> rfl)])]
@[simp] theorem haltScan_tally (s : State) : (haltScan s).tally = s.tally := by unfold haltScan; dsimp only; split <;> [rfl; (split_ifs <;> [rfl; rfl; rfl; (split <;> rfl)])]
@[simp] theorem haltScan_resets (s : State) : (haltScan s).resets = s.resets := by unfold haltScan; dsimp only; split <;> [rfl; (split_ifs <;> [rfl; rfl; rfl; (split <;> rfl)])]
@[simp] theorem beginHalt_pending (s : State) : (beginHalt s).pending = s.pending := by simp [beginHalt]
@[simp] theorem beginHalt_dram (s : State) : (beginHalt s).dram = s.dram := by simp [beginHalt]
@[simp] theorem beginHalt_pins (s : State) : (beginHalt s).pins = s.pins := by simp [beginHalt]
@[simp] theorem beginHalt_notice (s : State) : (beginHalt s).notice = s.notice := by simp [beginHalt]
@[simp] theorem beginHalt_start (s : State) : (beginHalt s).start = s.start := by simp [beginHalt]
@[simp] theorem beginHalt_setup (s : State) : (beginHalt s).setup = s.setup := by simp [beginHalt]
@[simp] theorem beginHalt_banks (s : State) : (beginHalt s).banks = s.banks := by simp [beginHalt]
@[simp] theorem beginHalt_monitor (s : State) : (beginHalt s).monitor = s.monitor := by simp [beginHalt]
@[simp] theorem beginHalt_lanes (s : State) : (beginHalt s).lanes = s.lanes := by simp [beginHalt]
@[simp] theorem beginHalt_closing (s : State) : (beginHalt s).closing = s.closing := by simp [beginHalt]
@[simp] theorem beginHalt_frame (s : State) : (beginHalt s).frame = s.frame := by simp [beginHalt]
@[simp] theorem beginHalt_links (s : State) : (beginHalt s).links = s.links := by simp [beginHalt]
@[simp] theorem beginHalt_rails (s : State) : (beginHalt s).rails = s.rails := by simp [beginHalt]
@[simp] theorem beginHalt_tally (s : State) : (beginHalt s).tally = s.tally := by simp [beginHalt]
@[simp] theorem beginHalt_resets (s : State) : (beginHalt s).resets = s.resets := by simp [beginHalt]

end Sys2Proof.Machine
end

