-- ==== Sys2Proof/Laws/Memory.lean ====
section
/-! SUPPORT. The laws of the DRAM: a read after a write, the canonical form that every write keeps, and the canonical form
as the equality of memories. -/

namespace Sys2Proof.Machine

/-! ## A read after a write -/

theorem Memory.read_append (p q : Memory) (x : Nat) (h : ∀ c ∈ p, c.1 ≠ x) :
    Memory.read (p ++ q) x = Memory.read q x := by
  have : p.find? (fun c => c.1 == x) = none := by
    simp only [List.find?_eq_none, beq_iff_eq]
    exact h
  simp [Memory.read, List.find?_append, this]

theorem Memory.read_append_right (p q : Memory) (x : Nat) (h : ∀ c ∈ q, c.1 ≠ x) :
    Memory.read (p ++ q) x = Memory.read p x := by
  have : q.find? (fun c => c.1 == x) = none := by
    simp only [List.find?_eq_none, beq_iff_eq]
    exact h
  simp [Memory.read, List.find?_append, this]

/-- A filter that keeps every cell of an address reads there as the whole does. -/
theorem Memory.read_filter (m : Memory) (p : Host.Cell → Bool) (x : Nat) (h : ∀ b, p (x, b) = true) :
    Memory.read (m.filter p) x = Memory.read m x := by
  induction m with
  | nil => rfl
  | cons c rest ih =>
    by_cases hc : c.1 = x
    · have hp : p c = true := by have := h c.2; rw [← hc] at this; exact this
      simp [Memory.read, hp, hc]
    · have hcx : (c.1 == x) = false := by simpa using hc
      simp only [Memory.read] at ih ⊢
      by_cases hp : p c = true
      · rw [List.filter_cons_of_pos hp]
        simpa only [List.find?_cons, hcx] using ih
      · rw [List.filter_cons_of_neg hp]
        simpa only [List.find?_cons, hcx] using ih

theorem Memory.mem_cells {a : Nat} {bs : List Byte} {c : Host.Cell} (h : c ∈ Memory.cells a bs) :
    a ≤ c.1 ∧ c.1 < a + bs.length ∧ c.2 ≠ Memory.blank := by
  induction bs generalizing a with
  | nil => simp [Memory.cells] at h
  | cons b rest ih =>
    simp only [Memory.cells] at h
    split at h
    · have := ih h; simp only [List.length_cons]; exact ⟨by omega, by omega, this.2.2⟩
    · next hb =>
      rcases List.mem_cons.1 h with rfl | h
      · simp [hb]
      · have := ih h; simp only [List.length_cons]; exact ⟨by omega, by omega, this.2.2⟩

theorem Memory.read_cells (a : Nat) (bs : List Byte) (x : Nat) (h1 : a ≤ x) (h2 : x < a + bs.length) :
    Memory.read (Memory.cells a bs) x = bs.getD (x - a) Memory.blank := by
  induction bs generalizing a with
  | nil => simp at h2; omega
  | cons b rest ih =>
    by_cases hx : x = a
    · subst hx
      simp only [Memory.cells, Nat.sub_self, List.getD_cons_zero]
      split
      · next hb =>
        rw [hb]
        have : ∀ c ∈ Memory.cells (x + 1) rest, c.1 ≠ x := fun c hc => by have := Memory.mem_cells hc; omega
        have : (Memory.cells (x + 1) rest).find? (fun c => c.1 == x) = none := by
          simpa only [List.find?_eq_none, beq_iff_eq] using this
        simp [Memory.read, this]
      · simp [Memory.read]
    · have e : x - a = (x - (a + 1)) + 1 := by omega
      simp only [List.length_cons] at h2
      rw [e, List.getD_cons_succ, ← ih (a + 1) (by omega) (by omega)]
      simp only [Memory.cells]
      split
      · rfl
      · have : ¬ a = x := fun h => hx h.symm
        simp [Memory.read, this]

/-- Everything a write does to what can be read: the bytes stored read back, every other address reads as before. -/
theorem Memory.read_write (m : Memory) (a : Nat) (bs : List Byte) (x : Nat) :
    (m.write a bs).read x = if a ≤ x ∧ x < a + bs.length then bs.getD (x - a) Memory.blank else m.read x := by
  unfold Memory.write
  split
  · next h =>
    rw [Memory.read_append, Memory.read_append_right, Memory.read_cells a bs x h.1 h.2]
    · intro c hc; simp at hc; omega
    · intro c hc; simp at hc; omega
  · next h =>
    rcases Nat.lt_or_ge x a with hx | hx
    · rw [Memory.read_append_right, Memory.read_filter]
      · intro b; simpa using hx
      · intro c hc
        rcases List.mem_append.1 hc with hc | hc
        · have := Memory.mem_cells hc; omega
        · simp at hc; omega
    · rw [Memory.read_append, Memory.read_append, Memory.read_filter]
      · intro b; simp; omega
      · intro c hc; have := Memory.mem_cells hc; omega
      · intro c hc; simp at hc; omega

theorem Memory.read_write_outside (m : Memory) {a : Nat} {bs : List Byte} {x : Nat} (h : x < a ∨ a + bs.length ≤ x) :
    (m.write a bs).read x = m.read x := by
  rw [Memory.read_write, if_neg (by omega)]

theorem Memory.read_write_inside (m : Memory) {a : Nat} {bs : List Byte} {x : Nat} (h1 : a ≤ x) (h2 : x < a + bs.length) :
    (m.write a bs).read x = bs.getD (x - a) Memory.blank := by
  rw [Memory.read_write, if_pos ⟨h1, h2⟩]

/-- The two bytes of a word make the word. -/
theorem word_of_bytes (w : Word) : w.extractLsb' 8 8 ++ w.extractLsb' 0 8 = w := by
  ext i hi
  rw [BitVec.getElem_append]
  split
  · simp [BitVec.getLsbD_eq_getElem hi]
  · simp only [BitVec.getElem_extractLsb', show 8 + (i - 8) = i by omega, BitVec.getLsbD_eq_getElem hi]

/-- A word stored reads back whole (R158). -/
theorem Memory.readWord_writeWord (m : Memory) (a : Nat) (w : Word) : (m.writeWord a w).readWord a = w := by
  simp [Memory.readWord, Memory.writeWord, Memory.read_write, wordBytes, word_of_bytes]

/-! ## The canonical form -/

theorem Memory.wf_cons {c : Host.Cell} {rest : Memory} :
    Memory.wf (c :: rest) = true ↔ (∀ d ∈ rest.head?, c.1 < d.1) ∧ c.2 ≠ Memory.blank ∧ Memory.wf rest = true := by
  cases rest with
  | nil => simp [Memory.wf]
  | cons d rest => simp [Memory.wf, and_assoc]

/-- The canonical form, said of all pairs of cells. -/
theorem Memory.wf_iff (m : Memory) :
    m.wf = true ↔ m.Pairwise (fun c d => c.1 < d.1) ∧ ∀ c ∈ m, c.2 ≠ Memory.blank := by
  induction m with
  | nil => simp [Memory.wf]
  | cons c rest ih =>
    rw [Memory.wf_cons, ih, List.pairwise_cons]
    constructor
    · rintro ⟨h1, h2, h3, h4⟩
      refine ⟨⟨?_, h3⟩, ?_⟩
      · intro d hd
        cases rest with
        | nil => simp at hd
        | cons e rest =>
          have he : c.1 < e.1 := h1 e (by simp)
          rcases List.mem_cons.1 hd with rfl | hd
          · exact he
          · exact lt_trans he ((List.pairwise_cons.1 h3).1 d hd)
      · intro d hd
        rcases List.mem_cons.1 hd with rfl | hd
        · exact h2
        · exact h4 d hd
    · rintro ⟨⟨h1, h2⟩, h3⟩
      refine ⟨?_, h3 c (by simp), h2, fun d hd => h3 d (by simp [hd])⟩
      intro d hd
      exact h1 d (List.mem_of_mem_head? hd)

theorem Memory.pairwise_cells (a : Nat) (bs : List Byte) : (Memory.cells a bs).Pairwise (fun c d => c.1 < d.1) := by
  induction bs generalizing a with
  | nil => simp [Memory.cells]
  | cons b rest ih =>
    simp only [Memory.cells]
    split
    · exact ih _
    · rw [List.pairwise_cons]
      refine ⟨fun d hd => ?_, ih _⟩
      have := Memory.mem_cells hd
      exact this.1

/-- Every write keeps the canonical form. -/
theorem Memory.wf_write {m : Memory} (h : m.wf = true) (a : Nat) (bs : List Byte) : (m.write a bs).wf = true := by
  rw [Memory.wf_iff] at h ⊢
  unfold Memory.write
  refine ⟨?_, ?_⟩
  · rw [List.pairwise_append, List.pairwise_append]
    refine ⟨h.1.filter _, ⟨Memory.pairwise_cells a bs, h.1.filter _, ?_⟩, ?_⟩
    · intro c hc d hd
      have := Memory.mem_cells hc
      simp at hd
      omega
    · intro c hc d hd
      simp at hc
      rcases List.mem_append.1 hd with hd | hd
      · have := Memory.mem_cells hd; omega
      · simp at hd; omega
  · intro c hc
    rcases List.mem_append.1 hc with hc | hc
    · exact h.2 c (List.mem_filter.1 hc).1
    · rcases List.mem_append.1 hc with hc | hc
      · exact (Memory.mem_cells hc).2.2
      · exact h.2 c (List.mem_filter.1 hc).1

/-- A run of writes keeps the canonical form. -/
theorem Memory.wf_foldl {α : Type} (f : Memory → α → Memory) (hf : ∀ m a, m.wf = true → (f m a).wf = true) (l : List α)
    {m : Memory} (h : m.wf = true) : (l.foldl f m).wf = true := by
  induction l generalizing m with
  | nil => exact h
  | cons a rest ih => exact ih (hf m a h)

theorem Memory.wf_writeWord {m : Memory} (h : m.wf = true) (a : Nat) (w : Word) : (m.writeWord a w).wf = true :=
  Memory.wf_write h _ _

theorem Memory.wf_ofCells (cells : List Host.Cell) : (Memory.ofCells cells).wf = true :=
  Memory.wf_foldl _ (fun m c h => by split <;> [exact Memory.wf_write h _ _; exact h]) cells rfl

theorem rewriteRow_wf {c : Setup} {m : Memory} (h : m.wf = true) (x y n : Nat) (g : Nat → Nat → Word → Word) :
    (rewriteRow c x y n g m).wf = true :=
  Memory.wf_write h _ _

theorem rewriteRect_wf {c : Setup} {m : Memory} (h : m.wf = true) (r : Rect) (g : Nat → Nat → Word → Word) :
    (rewriteRect c r g m).wf = true :=
  Memory.wf_foldl _ (fun _ _ h => rewriteRow_wf h _ _ _ _) _ h

theorem rewriteRectPart_wf {c : Setup} {m : Memory} (h : m.wf = true) (r : Rect) (n : Nat) (g : Nat → Nat → Word → Word) :
    (rewriteRectPart c r n g m).wf = true :=
  Memory.wf_foldl _ (fun _ _ h => rewriteRow_wf h _ _ _ _) _ h

theorem writeEntry_wf {c : Setup} {m : Memory} (h : m.wf = true) (tx ty : Nat) (e : LedgerEntry) :
    (writeEntry c tx ty e m).wf = true :=
  Memory.wf_write h _ _

theorem writeScratch_wf {c : Setup} {m : Memory} (h : m.wf = true) (n : Fin 32) (tx ty : Nat) (r : ScratchRecord) :
    (writeScratch c n tx ty r m).wf = true :=
  Memory.wf_write h _ _

theorem writeHeader_wf {c : Setup} {m : Memory} (h : m.wf = true) (w : HeaderWrite) : (writeHeader c w m).wf = true :=
  Memory.wf_write h _ _

theorem writeStatus_wf {c : Setup} {m : Memory} (h : m.wf = true) (slot : Fin 64) (seen : Byte) (st : SlotStatus) :
    (writeStatus c slot seen st m).wf = true :=
  Memory.wf_write h _ _

theorem writeRunning_wf {c : Setup} {m : Memory} (h : m.wf = true) (slot : Fin 64) (seen : Byte) (mode : Mode)
    (lane : Fin 32) : (writeRunning c slot seen mode lane m).wf = true :=
  writeStatus_wf (Memory.wf_write h _ _) _ _ _

theorem writeFinish_wf {c : Setup} {m : Memory} (h : m.wf = true) (k : Nat) (f : Finish) : (writeFinish c k f m).wf = true :=
  writeStatus_wf (Memory.wf_write h _ _) _ _ _

/-- Memories in the canonical form that read alike everywhere are the same data. -/
theorem Memory.ext_of_wf {p q : Memory} (hp : p.wf = true) (hq : q.wf = true) (h : ∀ x, p.read x = q.read x) : p = q := by
  have key : ∀ {m : Memory}, m.wf = true → ∀ x b, (x, b) ∈ m ↔ (m.read x = b ∧ b ≠ Memory.blank) := by
    intro m hm x b
    rw [Memory.wf_iff] at hm
    constructor
    · intro hmem
      refine ⟨?_, hm.2 _ hmem⟩
      obtain ⟨l1, l2, rfl⟩ := List.append_of_mem hmem
      rw [Memory.read_append]
      · simp [Memory.read]
      · intro c hc
        have := (List.pairwise_append.1 hm.1).2.2 c hc (x, b) (by simp)
        exact Nat.ne_of_lt this
    · rintro ⟨hr, hb⟩
      unfold Memory.read at hr
      split at hr
      · next c hc =>
        have h1 := List.mem_of_find?_eq_some hc
        have h2 := List.find?_some hc
        simp only [beq_iff_eq] at h2
        rw [← hr, ← h2]
        exact h1
      · exact absurd hr.symm hb
  have hmem : ∀ c, c ∈ p ↔ c ∈ q := by
    rintro ⟨x, b⟩
    rw [key hp, key hq, h]
  rw [Memory.wf_iff] at hp hq
  have np : p.Nodup := hp.1.imp (fun {a b} hab he => by rw [he] at hab; exact Nat.lt_irrefl _ hab)
  have nq : q.Nodup := hq.1.imp (fun {a b} hab he => by rw [he] at hab; exact Nat.lt_irrefl _ hab)
  exact ((List.perm_ext_iff_of_nodup np nq).2 hmem).eq_of_pairwise
    (fun a b _ _ h1 h2 => absurd (Nat.lt_trans h1 h2) (Nat.lt_irrefl _)) hp.1 hq.1

/-! ## Reads of several bytes -/

theorem Memory.expand_eq (n a : Nat) (m : Memory) (h : m.Pairwise (fun c d => c.1 < d.1)) (hlow : ∀ c ∈ m, a ≤ c.1) :
    Memory.expand n a m = (List.range n).map fun i => Memory.read m (a + i) := by
  induction n generalizing a m with
  | zero => simp [Memory.expand]
  | succ n ih =>
    rw [List.range_succ_eq_map, List.map_cons, List.map_map]
    cases m with
    | nil =>
      rw [Memory.expand, ih (a + 1) [] List.Pairwise.nil (by simp)]
      simp [Memory.read, Function.comp_def]
    | cons c rest =>
      obtain ⟨k, b⟩ := c
      rw [List.pairwise_cons] at h
      simp only [Memory.expand]
      split
      · next hk =>
        subst hk
        rw [ih (k + 1) rest h.2 (fun d hd => h.1 d hd)]
        simp only [Nat.add_zero, Function.comp_def, List.cons.injEq]
        refine ⟨by simp [Memory.read], List.map_congr_left fun i _ => ?_⟩
        rw [show k + (i + 1) = k + 1 + i by omega]
        simp only [Memory.read, List.find?_cons]
        rw [show (k == k + 1 + i) = false by simp; omega]
      · next hk =>
        have hka : a ≤ k := hlow (k, b) (by simp)
        rw [ih (a + 1) ((k, b) :: rest) (by rw [List.pairwise_cons]; exact h)]
        · simp only [Nat.add_zero, Function.comp_def, List.cons.injEq]
          refine ⟨?_, List.map_congr_left fun i _ => by rw [show a + (i + 1) = a + 1 + i by omega]⟩
          have : ∀ d ∈ ((k, b) :: rest), d.1 ≠ a := by
            intro d hd
            rcases List.mem_cons.1 hd with rfl | hd
            · exact hk
            · have := h.1 d hd; dsimp only at this; omega
          have : ((k, b) :: rest).find? (fun d => d.1 == a) = none := by
            simpa only [List.find?_eq_none, beq_iff_eq] using this
          rw [Memory.read, this]
        · intro d hd
          rcases List.mem_cons.1 hd with rfl | hd
          · dsimp only; omega
          · have := h.1 d hd; dsimp only at this; omega

/-- A run of bytes is each of its bytes. -/
theorem Memory.readBytes_eq {m : Memory} (h : m.wf = true) (a n : Nat) :
    m.readBytes a n = (List.range n).map fun i => m.read (a + i) := by
  rw [Memory.wf_iff] at h
  rw [Memory.readBytes, Memory.expand_eq _ _ _ (h.1.filter _) (fun c hc => by simpa using (List.mem_filter.1 hc).2)]
  refine List.map_congr_left fun i _ => Memory.read_filter _ _ _ fun b => by simp

theorem Memory.length_expand (n a : Nat) (m : Memory) : (Memory.expand n a m).length = n := by
  induction n generalizing a m with
  | zero => rfl
  | succ n ih =>
    cases m with
    | nil => simp [Memory.expand, ih]
    | cons c rest => obtain ⟨k, b⟩ := c; simp only [Memory.expand]; split <;> simp [ih]

@[simp] theorem Memory.length_readBytes (m : Memory) (a n : Nat) : (m.readBytes a n).length = n :=
  Memory.length_expand _ _ _

/-! ## Words and bytes -/

@[simp] theorem length_wordBytes (w : Word) : (wordBytes w).length = 2 := rfl

@[simp] theorem length_dwordBytes (w : DWord) : (dwordBytes w).length = 4 := rfl

@[simp] theorem length_bytesOf (ws : List Word) : (bytesOf ws).length = 2 * ws.length := by
  induction ws with
  | nil => rfl
  | cons w rest ih => simp [bytesOf, ih]; omega

/-- Words written as bytes and taken two by two are the words. -/
@[simp] theorem wordsOf_bytesOf (ws : List Word) : wordsOf (bytesOf ws) = ws := by
  induction ws with
  | nil => rfl
  | cons w rest ih => simp [bytesOf, wordBytes, wordsOf, ih, word_of_bytes]

end Sys2Proof.Machine
end

