-- ==== Sys2Proof/Laws/Ops.lean ====
section
/-! SUPPORT. For each operation that several commands share, once, everything it can answer: the case analysis that a later
proof cites in place of unfolding the operation. -/

namespace Sys2Proof.Machine

/-- What holds at the start of a run of steps and is kept by each step holds at its end. -/
theorem foldl_inv {α σ : Type} (P : σ → Prop) (f : σ → α → σ) (l : List α) (s : σ) (h0 : P s)
    (h : ∀ u, ∀ a ∈ l, P u → P (f u a)) : P (l.foldl f s) := by
  induction l generalizing s with
  | nil => exact h0
  | cons a rest ih =>
    exact ih (f s a) (h s a (by simp) h0) fun u b hb hu => h u b (List.mem_cons_of_mem _ hb) hu

/-! ## The port -/

/-- An access is served with its effect, or, while the reset pin is asserted, does nothing (R158). -/
theorem access_cases {effect : State → State} {s t : State} (h : access effect s = .next t) :
    (s.pins.reset = true ∧ t = s) ∨ (s.pins.reset = false ∧ t = effect s) := by
  unfold access State.served at h
  cases hr : s.pins.reset <;> simp [hr] at h
  · exact .inr ⟨rfl, h.symm⟩
  · exact .inl ⟨rfl, h.symm⟩

/-- A command write is not served, or accepted with its effect, or refused with the result alone (R163). -/
theorem command_cases {accepted : Bool} {effect : State → State} {s t : State}
    (h : command accepted effect s = .next t) :
    (s.pins.reset = true ∧ t = s) ∨
      (s.pins.reset = false ∧ accepted = true ∧ t = effect (setResult .accepted s)) ∨
      (s.pins.reset = false ∧ accepted = false ∧ t = setResult s.refusal s) := by
  rcases access_cases h with h | ⟨hr, h⟩
  · exact .inl h
  · cases accepted
    · exact .inr (.inr ⟨hr, rfl, by simpa using h⟩)
    · exact .inr (.inl ⟨hr, rfl, by simpa using h⟩)

/-- A header field is handed in READY, HALTING and HALTED, and nowhere else (R71). -/
theorem handHeader_cases (w : HeaderWrite) (s : State) :
    (s.configured = true ∧ handHeader w s = handRequest (.header w) s) ∨ (s.configured = false ∧ handHeader w s = s) := by
  unfold handHeader
  cases s.configured <;> simp

/-- HALTING ends, or the part stays as it is (R164). -/
theorem settleHalt_cases (s : State) :
    (s.port.partState = .halting ∧ s.admission.flushDue = false ∧ s.lanesOut = 0 ∧
      settleHalt s = setPartState .halted { s with notice := { s.notice with halted := true } }) ∨
    (¬ (s.port.partState = .halting ∧ s.admission.flushDue = false ∧ s.lanesOut = 0) ∧ settleHalt s = s) := by
  by_cases h : s.port.partState = .halting ∧ s.admission.flushDue = false ∧ s.lanesOut = 0
  · exact .inl ⟨h.1, h.2.1, h.2.2, by simp [settleHalt, h]⟩
  · refine .inr ⟨h, ?_⟩
    unfold settleHalt
    rw [if_neg]
    simpa using h

/-! ## The rails -/

/-- Every transition of the rails that needs no time to pass, with what it needs. -/
theorem railImmediate_cases {s t : State} (h : railImmediate s = some t) :
    ((s.rails.state = .rising ∨ s.rails.state = .on) ∧ s.pins.alert = true ∧ t = enterFault .supplyAlert s) ∨
    (s.rails.state = .rising ∧ s.rails.stepTimer = true ∧ stepDelay s.cfg s.rails.step = 0 ∧ t = assertNext s) ∨
    (s.rails.state = .rising ∧ s.rails.riseTimer = true ∧ s.pins.powerGood = true ∧ t = enterOn s) ∨
    (s.rails.state = .on ∧ s.rails.idleTimer = .running ∧ s.cfg.idleHold = 0 ∧ t = enterFalling s) ∨
    (s.rails.state = .falling ∧ s.rails.stepTimer = true ∧ stepDelay s.cfg (s.rails.step - 1) = 0 ∧ t = releaseNext s) ∨
    (s.rails.state = .off ∧ s.rails.demandHeld = true ∧ t = enterRising s) := by
  unfold railImmediate at h
  cases hr : s.rails.state <;> simp only [hr] at h <;> (repeat' split at h) <;> simp_all

/-- What holds of a state, and is kept by each transition that needs no time to pass, holds once the rails have settled. -/
theorem settleRails_inv (P : State → Prop) (s : State) (h0 : P s) (h : ∀ u v, P u → railImmediate u = some v → P v) :
    P (settleRails s) := by
  suffices ∀ n u, P u → P (railSettle n u) from this _ _ h0
  intro n
  induction n with
  | zero => exact fun u hu => hu
  | succ n ih =>
    intro u hu
    unfold railSettle
    split
    · exact ih _ (h u _ hu ‹_›)
    · exact hu

/-- A rise demand raises the rails, is held, or is already met (R155). -/
theorem riseDemand_cases (s : State) :
    (s.rails.state = .off ∧ riseDemand s = settleRails (enterRising s)) ∨
    ((s.rails.state = .falling ∨ s.rails.state = .fault) ∧
      riseDemand s = { s with rails := { s.rails with demandHeld := true } }) ∨
    ((s.rails.state = .rising ∨ s.rails.state = .on) ∧ riseDemand s = s) := by
  unfold riseDemand
  cases h : s.rails.state <;> simp

/-! ## The bank unit and the monitor -/

/-- A load request starts, is deferred, or restarts (R37, R38). -/
theorem requestLoad_cases (band : Nat) (s : State) :
    (s.banks.request = none ∧ (s.banks.get (loadTarget s.banks)).refs = 0 ∧
      requestLoad band s = startLoad (loadTarget s.banks) band s) ∨
    (s.banks.request = none ∧ (s.banks.get (loadTarget s.banks)).refs ≠ 0 ∧
      requestLoad band s = { s with banks := { s.banks with request := some ⟨loadTarget s.banks, band, .deferred⟩ } }) ∨
    (∃ target old, s.banks.request = some ⟨target, old, .deferred⟩ ∧
      requestLoad band s = { s with banks := { s.banks with request := some ⟨target, band, .deferred⟩ } }) ∨
    (∃ target old words, s.banks.request = some ⟨target, old, .reading words⟩ ∧
      requestLoad band s = startLoad target band s) := by
  unfold requestLoad
  rcases hq : s.banks.request with _ | ⟨target, old, _ | words⟩
  · by_cases hr : (s.banks.get (loadTarget s.banks)).refs = 0 <;> simp [hr]
  · simp
  · simp

/-- A lane's return starts a load that was deferred for its bank, or only lowers the count (R35, R38). -/
theorem startDeferred_cases (id : BankId) (s : State) :
    (∃ band, s.banks.request = some ⟨id, band, .deferred⟩ ∧ (s.banks.get id).refs = 0 ∧
      startDeferred id s = startLoad id band s) ∨ startDeferred id s = s := by
  unfold startDeferred
  split
  · rename_i target band hq
    split
    · rename_i h
      obtain ⟨rfl, hr⟩ := h
      exact .inl ⟨band, hq, hr, rfl⟩
    · exact .inr rfl
  · exact .inr rfl

/-- A band evaluation has no temperature, keeps the band, or changes it, hands it on and asks for its load (R53, R54). -/
theorem evaluateBand_cases (s : State) :
    (s.monitor.inUse = none ∧ evaluateBand s = s) ∨
    (∃ t, s.monitor.inUse = some t ∧
      ((s.monitor.band = some (nextBand s.banks.bounds s.cfg.hysteresis s.monitor.band t) ∧ evaluateBand s = s) ∨
        (s.monitor.band ≠ some (nextBand s.banks.bounds s.cfg.hysteresis s.monitor.band t) ∧
          ∃ b, b = nextBand s.banks.bounds s.cfg.hysteresis s.monitor.band t ∧
            evaluateBand s =
              requestLoad b (handHeader (.band (some b)) { s with monitor := { s.monitor with band := some b } })))) := by
  unfold evaluateBand
  cases h : s.monitor.inUse with
  | none => simp
  | some t =>
    refine .inr ⟨t, rfl, ?_⟩
    dsimp only
    split
    · rename_i hb
      exact .inl ⟨hb, rfl⟩
    · rename_i hb
      exact .inr ⟨hb, _, rfl, rfl⟩

/-! ## Lanes, requests and examinations -/

/-- A lane's fault step breaks it, releases it, or leaves it (R123). -/
theorem faultStep_cases (src : FaultSource) (n : Fin 32) (s : State) :
    ((s.lane n).state = .driving ∧ faultStep src n s = breakLane src n s) ∨
    (((s.lane n).state = .loading ∨ (s.lane n).state = .armed) ∧ faultStep src n s = releaseLane src n s) ∨
    (((s.lane n).state = .free ∨ (s.lane n).state = .closing) ∧ faultStep src n s = s) := by
  unfold faultStep
  cases h : (s.lane n).state <;> simp

/-- A judgement's end tells the rails that the last TRAINING link has left TRAINING, or nothing (R141). -/
theorem settleTraining_cases (before : Bool) (s : State) :
    (before = true ∧ s.anyTraining = false ∧ settleTraining before s = noteTraining s) ∨
      (¬ (before = true ∧ s.anyTraining = false) ∧ settleTraining before s = s) := by
  unfold settleTraining
  cases before <;> cases s.anyTraining <;> simp

/-- A trigger of a pass during one sets the further-pass flag; with none in progress it starts one at the front (R76). -/
theorem Admission.trigger_cases (a : Admission) :
    (a.passActive = true ∧ a.trigger = { a with passDue := true }) ∨
    (a.passActive = false ∧ a.trigger = { a with
      passActive := !a.list.isEmpty, passDue := false, list := a.list.map fun e => { e with examined := false } }) := by
  unfold Admission.trigger
  cases h : a.passActive <;> simp

/-- A trigger of a scan during one causes a further scan; with none in progress it starts one (R66). -/
theorem Board.trigger_cases (b : Board) :
    (b.scan ≠ none ∧ b.trigger = { b with scanDue := true }) ∨
    (b.scan = none ∧ b.trigger = { b with scan := some (Scan.start b.cursor) }) := by
  unfold Board.trigger
  cases h : b.scan <;> simp

/-- R62's table, line by line. -/
theorem found_cases (slot : Fin 64) (s : State) :
    (s.found slot = .posting ↔ ((s.slot slot).status = .idle ∨ (s.slot slot).status = .finished) ∧
      s.dram.read (slotAddress s.cfg slot) ≠ (s.slot slot).seen) ∧
    (s.found slot = .withdraw ↔ ((s.slot slot).status = .waiting ∨ (s.slot slot).status = .running) ∧
      s.dram.read (slotAddress s.cfg slot + 1) = (s.slot slot).seen) := by
  unfold State.found
  cases h : (s.slot slot).status <;> dsimp only <;> split <;> simp_all

/-- The visit of a slot is that of the withdraw HALT has found; or it begins and ends without a take; or it ends with the take
whose copy it or an earlier step began. -/
theorem endVisit_cases (k : Scan) (s : State) :
    (∃ words, k.copy = some words ∧ endVisit k s = endTake k words s) ∨
    (k.copy = none ∧ k.ending = true ∧ (handWithdraw k s).scan.copy = none ∧ endVisit k s = handWithdraw k s) ∨
    (k.copy = none ∧ k.ending = false ∧ (beginVisit k s).scan.copy = none ∧ endVisit k s = beginVisit k s) ∨
    (k.copy = none ∧ k.ending = false ∧ ∃ words, (beginVisit k s).scan.copy = some words ∧
      endVisit k s = endTake (beginVisit k s).scan words (beginVisit k s).state) := by
  unfold endVisit
  cases h : k.copy with
  | some words => exact .inl ⟨words, rfl, rfl⟩
  | none =>
    cases he : k.ending with
    | true => exact .inr (.inl ⟨rfl, rfl, by simp [handWithdraw, h], by simp [handWithdraw, h]⟩)
    | false =>
      dsimp only
      cases h' : (beginVisit k s).scan.copy with
      | none => exact .inr (.inr (.inl ⟨rfl, rfl, rfl, by simp [h']⟩))
      | some words => exact .inr (.inr (.inr ⟨rfl, rfl, words, rfl, by simp [h']⟩))

/-- A band evaluation moves nothing of the monitor but the band (R53). -/
theorem evaluateBand_monitor (s : State) : ∃ b, (evaluateBand s).monitor = { s.monitor with band := b } := by
  rcases evaluateBand_cases s with ⟨-, h⟩ | ⟨t, -, ⟨-, h⟩ | ⟨-, b, -, h⟩⟩
  · exact ⟨s.monitor.band, by rw [h]⟩
  · exact ⟨s.monitor.band, by rw [h]⟩
  · exact ⟨some b, by simp [h]⟩

/-- An update of the monitor leaves it as given, with the status and the temperature in use that R49's table decides, and the band
as an evaluation leaves it (R49, R53). -/
theorem updateMonitor_monitor (m : Monitor) (s : State) :
    ∃ b, (updateMonitor m s).monitor = { m with status := m.decide.1, inUse := m.decide.2, band := b } := by
  have pass : ∀ (p : Prop) [Decidable p] (u : State), (if p then triggerPass u else u).monitor = u.monitor := by
    intros; split <;> simp
  have head : ∀ (p : Prop) [Decidable p] (w : HeaderWrite) (u : State),
      (if p then u else handHeader w u).monitor = u.monitor := by intros; split <;> simp
  unfold updateMonitor
  dsimp only
  rw [pass]
  by_cases hb : m.decide.2 = s.monitor.inUse
  · rw [if_pos hb, head, head]
    exact ⟨m.band, by split <;> rfl⟩
  · rw [if_neg hb]
    refine (evaluateBand_monitor _).imp fun b h => h.trans ?_
    rw [head, head]
    split <;> rfl

/-- With the end of an override read the copy holds the value word it has found and the flag word as it stands, and nothing else of
the monitor moves but what R49's table and R53 then give (R51). -/
theorem overrideRead_monitor (value : Word) (s : State) :
    ∃ status inUse band, (overrideRead value s).monitor = { s.monitor with
      overrideFlag := (s.dram.readWord (s.cfg.boardBase + 2)).getLsbD 0, overrideValue := value.toInt, status := status,
      inUse := inUse, band := band } := by
  obtain ⟨b, h⟩ := updateMonitor_monitor { s.monitor with
    overrideFlag := (s.dram.readWord (s.cfg.boardBase + 2)).getLsbD 0, overrideValue := value.toInt } s
  exact ⟨_, _, b, h⟩

/-- The start of a sensor read goes on with the flag word, and addresses the sensor; or there is none (R46, R51). -/
theorem readTick_cases (s : State) :
    (∃ value, s.monitor.held = some value ∧
      readTick s = { overrideRead value s with
        monitor := { (overrideRead value s).monitor with held := none, bus := [.start] } }) ∨
    (s.monitor.held = none ∧ readTick s = s) := by
  unfold readTick
  cases h : s.monitor.held with
  | none => exact .inr ⟨rfl, rfl⟩
  | some value => exact .inl ⟨value, rfl, rfl⟩

/-- The scan in progress reads what is left of the override words, once, or nothing happens (R66, R51). -/
theorem openScan_cases (s : State) :
    (∃ k value, s.board.scan = some k ∧ k.opened = false ∧ value = k.held.getD s.overrideWord ∧
      openScan s = { overrideRead value s with
        board := { (overrideRead value s).board with scan := some { k with opened := true, held := none } } }) ∨
    ((∀ k, s.board.scan = some k → k.opened = true) ∧ openScan s = s) := by
  unfold openScan
  cases h : s.board.scan with
  | none => exact .inr ⟨by simp, rfl⟩
  | some k => cases hk : k.opened <;> simp [hk]

/-- A scan that has not read both override words reads the value word; or the flag word, with which one that HALT has found ends
(R66, R51). -/
theorem openTick_cases (k : Scan) (s : State) :
    (k.held = none ∧
      openTick k s = { s with board := { s.board with scan := some { k with held := some s.overrideWord } } }) ∨
    (k.held ≠ none ∧ k.ending = true ∧ openTick k s = endScan (openScan s)) ∨
    (k.held ≠ none ∧ k.ending = false ∧ openTick k s = openScan s) := by
  unfold openTick
  cases h : k.held <;> cases he : k.ending <;> simp

/-- A scan's end takes it away, triggers a pass where it has changed the list, and starts the further scan where one is due
(R66). -/
theorem endScan_cases (s : State) :
    (s.board.scan = none ∧ endScan s = s) ∨
    ∃ k, s.board.scan = some k ∧
      let t := { s with board := { s.board with scan := none, scanDue := false } }
      let t := if k.changed = true then triggerPass t else t
      endScan s = if s.board.scanDue = true then triggerScan t else t := by
  unfold endScan
  cases h : s.board.scan with
  | none => exact .inl ⟨rfl, rfl⟩
  | some k => exact .inr ⟨k, rfl, rfl⟩

/-- What holds of a state, and is kept by each visit of the scan in progress, holds where the walk stops. -/
theorem walkScan_inv (P : State → Prop) (n : Nat) (s : State) (h0 : P s)
    (h : ∀ u k, P u → u.board.scan = some k → k.visited < 64 → P (endVisit k u).noted) : P (walkScan n s) := by
  induction n generalizing s with
  | zero => exact h0
  | succ n ih =>
    unfold walkScan
    split
    · rename_i k hk
      split_ifs with hv he
      · exact h0
      · exact h _ _ h0 hk (by omega)
      · exact ih _ (h _ _ h0 hk (by omega))
    · exact h0

/-- Everything HALT does to the scan in progress (R66): it ends; or it goes on with the override words alone; or, as its last visit,
with the copy of a posting, made already or begun now, or with a withdraw found. -/
theorem haltScan_cases (s : State) :
    (s.board.scan = none ∧ haltScan s = s) ∨
    ∃ k, s.board.scan = some k ∧
      (k.opened = true ∧ haltScan s = { s with board := { s.board with scan := none } } ∨
        k.opened = false ∧
          haltScan s = { s with board := { s.board with scan := some { k with visited := 64, ending := true } } } ∨
        k.opened = true ∧ k.visited < 64 ∧ (haltScan s = { s with board := { s.board with scan := some { k with ending := true } } } ∨
          k.copy = none ∧ s.found k.slot = .posting ∧ haltScan s = (beginCopy k s).last)) := by
  unfold haltScan
  cases h : s.board.scan with
  | none => exact .inl ⟨rfl, rfl⟩
  | some k =>
    refine .inr ⟨k, rfl, ?_⟩
    dsimp only
    split_ifs with h₀ h₁ h₂
    · exact .inr (.inl ⟨by simpa using h₀, rfl⟩)
    · exact .inl ⟨by simpa using h₀, rfl⟩
    · exact .inr (.inr ⟨by simpa using h₀, by omega, .inl rfl⟩)
    · have ho : k.opened = true := by simpa using h₀
      have hc : k.copy = none := by simpa using h₂
      cases hf : s.found k.slot with
      | nothing => exact .inl ⟨ho, rfl⟩
      | posting => exact .inr (.inr ⟨ho, by omega, .inr ⟨hc, rfl, rfl⟩⟩)
      | withdraw => exact .inr (.inr ⟨ho, by omega, .inl rfl⟩)

/-- Everything the fetch can do between two commands: it takes the pixel at its position, or waits for its end (R90). -/
theorem fetchTick_cases (s : State) :
    (∃ f, s.admission.fetch = some f ∧ f.position < (s.lane f.lane).rect.area ∧ fetchTick s = fetchPixel f s) ∨
      fetchTick s = s := by
  unfold fetchTick
  split
  · rename_i f hf
    split
    · exact .inl ⟨f, hf, ‹_›, rfl⟩
    · exact .inr rfl
  · exact .inr rfl

/-- What holds of a state, and is kept by each pixel the fetch takes, holds once it has taken the rest. -/
theorem fetchRest_inv (P : State → Prop) (s : State) (h0 : P s)
    (h : ∀ u f, P u → u.admission.fetch = some f → f.position < (u.lane f.lane).rect.area → P (fetchPixel f u)) :
    P (fetchRest s) := by
  have key : ∀ n u, P u → P (fetchPixels n u) := by
    intro n
    induction n with
    | zero => exact fun u hu => hu
    | succ n ih =>
      intro u hu
      refine ih _ ?_
      rcases fetchTick_cases u with ⟨f, hf, hp, he⟩ | he
      · rw [he]; exact h u f hu hf hp
      · rw [he]; exact hu
  unfold fetchRest
  split
  · exact key _ _ h0
  · exact h0

/-- What the fetch does with the pixel at its position (R91): it claims it, or leaves it where its entry is empty; either way it
moves on, keeps the image word it has read, and notes a rounding. -/
theorem fetchPixel_cases (f : Fetch) (s : State) :
    let p := lookPixel f s
    let l := { s.lane f.lane with flags := { (s.lane f.lane).flags with rounded := (s.lane f.lane).flags.rounded || p.rounded } }
    let a := { s.admission with fetch := some { f with position := f.position + 1, held := some p.image } }
    (p.entry = [] ∧ fetchPixel f s = setLane f.lane l { s with admission := a }) ∨
      (p.entry ≠ [] ∧ fetchPixel f s =
        setLane f.lane (l.claimPixel p.entry) { s with dram := claimWord f.lane p s.cfg s.dram, admission := a }) := by
  unfold fetchPixel
  rcases h : (lookPixel f s).entry with _ | ⟨c, rest⟩
  · exact .inl ⟨h, by simp [h, claimWord]⟩
  · exact .inr ⟨by simp [h], by simp [h]⟩

/-- Everything the board writer can do between two commands (R68): one more word of outcome fields; the status word of a request
that no lane carries; the low word of the new count; or nothing. -/
theorem boardTick_cases (s : State) :
    (∃ f rest, s.board.queue = .finish f :: rest ∧ s.board.written < outcomeWords ∧
      boardTick s = { s with
        board := { s.board with written := s.board.written + 1 },
        dram := s.dram.write (partHalf s.cfg f.slot + 2 + 2 * s.board.written)
          ((f.outcomeBytes.drop (2 * s.board.written)).take 2) }) ∨
    (∃ f rest, s.board.queue = .finish f :: rest ∧ outcomeWords ≤ s.board.written ∧ f.lane = none ∧
      boardTick s = performFinish f { s with board := { s.board with queue := .completion :: rest } }) ∨
    (∃ rest, s.board.queue = .completion :: rest ∧ s.board.written = 0 ∧
      boardTick s = { s with
        board := { s.board with written := 1 },
        dram := s.dram.write (s.cfg.boardBase + 32) ((dwordBytes (s.board.completion + 1)).take 2) }) ∨
    boardTick s = s := by
  unfold boardTick
  rcases hq : s.board.queue with _ | ⟨r, rest⟩
  · exact .inr (.inr (.inr rfl))
  · cases r with
    | finish f =>
      dsimp only
      split
      · rename_i hw
        exact .inl ⟨f, rest, rfl, hw, rfl⟩
      · rename_i hw
        split
        · rename_i hl
          exact .inr (.inl ⟨f, rest, rfl, by omega, hl, rfl⟩)
        · exact .inr (.inr (.inr rfl))
    | completion =>
      dsimp only
      split
      · rename_i hw
        exact .inr (.inr (.inl ⟨rest, rfl, hw, rfl⟩))
      · exact .inr (.inr (.inr rfl))
    | header w => exact .inr (.inr (.inr rfl))
    | waiting slot seen => exact .inr (.inr (.inr rfl))
    | running slot seen mode lane => exact .inr (.inr (.inr rfl))

/-- The pass a boundary triggers runs at its own place and at no other (R103). -/
theorem boundaryPass_cases (place here : PassPlace) (s : State) :
    (place ≠ here ∧ boundaryPass place here s = s) ∨
    (place = .later ∧ here = .later ∧ boundaryPass place here s = triggerPass s) ∨
    (place = here ∧ place ≠ .later ∧ boundaryPass place here s = passWork (triggerPass s)) := by
  cases place <;> cases here <;> simp [boundaryPass]

/-- WITHDRAW_LATE is recorded in the lane of the slot until its close has handed the outcome, and dropped after it or where no
lane carries the slot (R65, R122). -/
theorem withdrawLate_cases (slot : Fin 64) (s : State) :
    (∃ n, s.laneOf slot = some n ∧ ((s.lane n).state ≠ .closing ∨ n ∈ s.closing) ∧
      withdrawLate slot s = setLane n { s.lane n with withdrawLate := true } s) ∨
    (∃ n, s.laneOf slot = some n ∧ (s.lane n).state = .closing ∧ n ∉ s.closing ∧ withdrawLate slot s = s) ∨
    (s.laneOf slot = none ∧ withdrawLate slot s = s) := by
  unfold withdrawLate
  cases h : s.laneOf slot with
  | none => exact .inr (.inr ⟨rfl, rfl⟩)
  | some n =>
    dsimp only
    split
    · rename_i hc
      exact .inr (.inl ⟨n, rfl, hc.1, by simpa using hc.2, rfl⟩)
    · rename_i hc
      refine .inl ⟨n, rfl, ?_, rfl⟩
      by_cases hs : (s.lane n).state = .closing
      · right
        by_contra hn
        exact hc ⟨hs, by simpa using hn⟩
      · exact .inl hs

/-! ## Closes and the stream -/

/-- Everything a close can do in one step (R120): the first lane of the line carries one tile into the ledger; or, with no tile
left, it hands its outcome and leaves the line; or no close is in progress. -/
theorem closeTick_cases (s : State) :
    (∃ n rest tile tiles, s.closing = n :: rest ∧ (s.lane n).toClose = tile :: tiles ∧
      closeTick s = setLane n { s.lane n with toClose := tiles }
        { s with dram := closeTile s.cfg s.tick n (s.lane n) tile s.dram }) ∨
    (∃ n rest, s.closing = n :: rest ∧ (s.lane n).toClose = [] ∧
      closeTick s = handRequest (.finish (laneFinish n (s.lane n) (s.intake (s.lane n).slot).tag))
        { s with closing := s.closing.filter (· != n) }) ∨
    (s.closing = [] ∧ closeTick s = s) := by
  unfold closeTick
  rcases hc : s.closing with _ | ⟨n, rest⟩
  · exact .inr (.inr ⟨rfl, rfl⟩)
  · dsimp only [closeStep]
    cases ht : (s.lane n).toClose with
    | nil => exact .inr (.inl ⟨n, rest, rfl, ht, by rw [hc]⟩)
    | cons tile tiles => exact .inl ⟨n, rest, tile, tiles, rfl, ht, by rw [hc]⟩

/-- Everything the stream can do in one step (R119): it works out one more code of its row; or, with the row's last, hands the
row on; or no frame is streamed. -/
theorem streamTick_cases (s : State) :
    let codes := s.frame.codes ++ [pixelCode s (s.dram.readWord (pixelAddress s.cfg s.frame.codes.length s.frame.row))]
    (s.streaming = true ∧ codes.length < s.cfg.width ∧
      streamTick s = { s with frame := { s.frame with codes := codes } }) ∨
    (s.streaming = true ∧ s.cfg.width ≤ codes.length ∧ streamTick s = handRow codes s) ∨
    (s.streaming = false ∧ streamTick s = s) := by
  intro codes
  unfold streamTick
  cases s.streaming
  · simp
  · by_cases h : codes.length < s.cfg.width
    · exact .inl ⟨rfl, h, by rw [if_pos rfl, if_pos h]⟩
    · exact .inr (.inl ⟨rfl, by omega, by rw [if_pos rfl, if_neg h]⟩)

/-! ## Examinations and passes -/

/-- What step 1 leaves (R79): an empty clip finishes the request; any other begins the examination at step 2. -/
theorem clipStep_cases (slot : Fin 64) (s : State) :
    let i := s.intake slot
    let u := updateWaiting slot (fun e => { e with
      examined := true, clip := clipRect s.cfg i, mode := none,
      flags := { Flags.none with clipped := (clipRect s.cfg i).isSome && isClipped s.cfg i } }) s
    (clipRect s.cfg i = none ∧ clipStep slot s = refuse slot .nothingToDo none u) ∨
      ∃ r, clipRect s.cfg i = some r ∧
        clipStep slot s = { u with admission := { u.admission with exam := some ⟨slot, r, .gates⟩ } } := by
  intro i u
  unfold clipStep
  cases h : clipRect s.cfg (s.intake slot) with
  | none => exact .inl ⟨rfl, by simp only [u, i, h]⟩
  | some r => exact .inr ⟨r, rfl, by simp only [u, i, h]⟩

/-- What the lane choice leaves (R98, R86): the request is held, or a FREE lane of its pool is chosen and the probe is next. -/
theorem placeStep_cases (x : Exam) (mode : Mode) (s : State) :
    placeStep x mode s = endExam s ∨
    ∃ n, heldByOrder x.slot x.rect s = false ∧ chooseLane (Mode.ofCode (s.intake x.slot).mode) s = some n ∧
      (s.lane n).state = .free ∧ placeStep x mode s = toStep x (.probe mode n) s := by
  unfold placeStep
  split
  · exact .inl rfl
  · rename_i hh
    cases hc : chooseLane (Mode.ofCode (s.intake x.slot).mode) s with
    | none => exact .inl rfl
    | some n =>
      refine .inr ⟨n, by simpa using hh, rfl, ?_, rfl⟩
      simpa using List.find?_some hc

/-- The answers of an examination's last step (R88): it refuses, holds, or claims. -/
theorem claimStep_cases (x : Exam) (mode : Mode) (n : Fin 32) (s : State) :
    (s.rails.state = .fault ∧ claimStep x mode n s = refuse x.slot (.railsDown s.rails.cause) none s) ∨
    (s.rails.state ≠ .fault ∧ ∃ k, lowestBadSegment x.rect s = some k ∧
      claimStep x mode n s = refuse x.slot (.segmentFault k) none s) ∨
    claimStep x mode n s = endExam s ∨
    (s.rails.state ≠ .fault ∧ s.rails.state ≠ .falling ∧ lowestBadSegment x.rect s = none ∧
      ∃ bank, s.banks.active = some bank ∧ (s.banks.get bank).modeLength mode ≠ 0 ∧
        ((((claimLane n x.slot mode bank x.rect s).lane n).state = .loading ∧
            claimStep x mode n s = startFetch n (claimLane n x.slot mode bank x.rect s)) ∨
          (((claimLane n x.slot mode bank x.rect s).lane n).state ≠ .loading ∧
            claimStep x mode n s = claimLane n x.slot mode bank x.rect s))) := by
  unfold claimStep
  split
  · exact .inl ⟨‹_›, rfl⟩
  · rename_i hf
    cases hb : lowestBadSegment x.rect s with
    | some k => exact .inr (.inl ⟨hf, k, rfl, rfl⟩)
    | none =>
      dsimp only
      split
      · exact .inr (.inr (.inl rfl))
      · rename_i hfall
        cases ha : s.banks.active with
        | none => exact .inr (.inr (.inl rfl))
        | some bank =>
          dsimp only
          split
          · exact .inr (.inr (.inl rfl))
          · rename_i hm
            refine .inr (.inr (.inr ⟨hf, hfall, rfl, bank, rfl, hm, ?_⟩))
            split
            · exact .inl ⟨‹_›, rfl⟩
            · exact .inr ⟨‹_›, rfl⟩

/-- Everything an examination can do in one step: nothing where there is none; else the step it stands at. -/
theorem examStep_cases (whole : Bool) (s : State) :
    (s.admission.exam = none ∧ examStep whole s = s) ∨
    ∃ x, s.admission.exam = some x ∧
      ((x.step = .gates ∧ examStep whole s = gateStep x s) ∨
        (∃ absent left reading, x.step = .ledger absent left reading ∧
          examStep whole s = ledgerStep x (if whole then left.length else 1) absent left reading s) ∨
        (∃ absent reading, x.step = .mode absent reading ∧ examStep whole s = modeStep x absent reading s) ∨
        (∃ mode, x.step = .place mode ∧ examStep whole s = placeStep x mode s) ∨
        ∃ mode n, x.step = .probe mode n ∧ examStep whole s = probeStep x mode n s) := by
  unfold examStep
  cases h : s.admission.exam with
  | none => exact .inl ⟨rfl, rfl⟩
  | some x =>
    refine .inr ⟨x, rfl, ?_⟩
    cases hs : x.step <;> simp [hs]

/-- What holds of a state, and is kept by each step of an examination, holds once the examination in progress has ended. -/
theorem examRest_inv (P : State → Prop) (s : State) (h0 : P s) (h : ∀ u, P u → P (examStep true u)) : P (examRest s) := by
  suffices ∀ n u, P u → P (examSteps n u) from this _ _ h0
  intro n
  induction n with
  | zero => exact fun u hu => hu
  | succ n ih => exact fun u hu => ih _ (h u hu)

/-- Everything the admission unit can do in one step (R76, R77): an examination goes on; or, in READY and with no fetch under
way, the pass in progress begins the next one or ends with the list; or it waits. -/
theorem passTick_cases (s : State) :
    (s.admission.fetch = none ∧ s.admission.exam ≠ none ∧ passTick s = examStep false s) ∨
    (s.admission.fetch = none ∧ s.admission.exam = none ∧ s.port.partState = .ready ∧ s.admission.passActive = true ∧
      ∃ e, s.nextWaiting = some e ∧ passTick s = clipStep e.slot s) ∨
    (s.admission.fetch = none ∧ s.admission.exam = none ∧ s.port.partState = .ready ∧ s.admission.passActive = true ∧
      s.nextWaiting = none ∧ passTick s = endPass s) ∨
    passTick s = s := by
  unfold passTick
  cases hf : s.admission.fetch
  · cases hx : s.admission.exam
    · by_cases hr : s.port.partState = .ready
      · cases ha : s.admission.passActive
        · simp [hr]
        · cases hn : s.nextWaiting <;> simp [hr]
      · simp [hr]
    · simp
  · simp

/-- Everything the flush of HALT can do in one step (R108): the request at the front of the list is finished; or the flush
waits. -/
theorem flushTick_cases (s : State) :
    (s.flushing = true ∧ ∃ e rest, s.admission.list = e :: rest ∧ flushTick s = finishWaiting e .halted s) ∨
    ((s.flushing = false ∨ s.admission.list = []) ∧ flushTick s = s) := by
  unfold flushTick
  cases hf : s.flushing
  · simp
  · cases hl : s.admission.list <;> simp

/-! ## Every command answers a next state -/

/-- No command faults and none is refused: the manual gives every event an effect. -/
theorem exec_answers (c : Instr) (s : State) : ∃ t, exec c s = .next t := by
  cases c <;> simp only [exec]
  case sensorReadComplete r => cases r <;> simp only [execSensorReadComplete] <;> split <;> exact ⟨_, rfl⟩
  all_goals
    first
    | exact ⟨_, rfl⟩
    | (simp only [execStart, execAttend, execHalt, execResume, execRailsOn, execRelink, execReload, execSoftReset, command, access,
        execNoticeCauseWrite, execNoticeMaskWrite, execNoticeAckWrite, execHostMemRead, execHostMemWrite,
        execUnknownCommand, execResetPin, execSetupValidation, execPlaneInitialisation, execLedgerInitialisation,
        execResynchronisation, execSensorRead, execTransactionTimeout, execStaleTimerExpiry, execHalfLifeExpiry,
        execLoadSuccess, execLoadFailure, execFetchEnd, execDeadlineExpiry, execHaltFlush,
        execFrameBoundary, execReturnToFree, execFinish, execBoardWrite, execEchoWord, execRiseStep,
        execPowerGoodAsserted, execPowerGoodReleased, execRiseTimeout, execBlankingExpiry, execIdleHoldExpiry,
        execFallStep, execWakeInputLow, execWakeEvent]
       repeat' split
       all_goals exact ⟨_, rfl⟩)

end Sys2Proof.Machine
end

