-- ==== Sys2Proof/Laws/PerInstr.lean ====
section
/-! SUPPORT. The operand checks of WellFormed, constructor by constructor: a command passes its check exactly where its
operands are what the port or the pin can carry. -/

namespace Sys2Proof.Laws

/-- An image passes its check exactly where its addresses rise strictly inside the DRAM and no byte listed is the one an
unlisted address reads as. -/
theorem dramImageWf_iff (m : List Host.Cell) :
    dramImageWf m = true ↔
      m.Pairwise (fun c d => c.1 < d.1) ∧ (∀ c ∈ m, c.1 < Config.dramBytes) ∧ ∀ c ∈ m, c.2 ≠ 0#8 := by
  induction m with
  | nil => simp [dramImageWf]
  | cons c rest ih =>
    cases rest with
    | nil => simp [dramImageWf]
    | cons d rest =>
      simp only [dramImageWf, Bool.and_eq_true, decide_eq_true_eq, bne_iff_ne, ne_eq, ih]
      constructor
      · rintro ⟨⟨lt, ne⟩, rise, inside, nonzero⟩
        refine ⟨List.pairwise_cons.2 ⟨?_, rise⟩, ?_, ?_⟩
        · intro e he
          rcases List.mem_cons.1 he with rfl | he
          · exact lt
          · exact lt.trans ((List.pairwise_cons.1 rise).1 e he)
        · intro e he
          rcases List.mem_cons.1 he with rfl | he
          · exact lt.trans (inside d (by simp))
          · exact inside e he
        · intro e he
          rcases List.mem_cons.1 he with rfl | he
          · exact ne
          · exact nonzero e he
      · rintro ⟨rise, inside, nonzero⟩
        have rise' := List.pairwise_cons.1 rise
        exact ⟨⟨rise'.1 d (by simp), nonzero c (by simp)⟩, rise'.2, fun e he => inside e (List.mem_cons_of_mem _ he),
          fun e he => nonzero e (List.mem_cons_of_mem _ he)⟩

/-- What a command's operands must be: an image of the DRAM's bytes in its canonical form, a value that names no command
(R163), the address of a register whose writes are discarded (R161), a number of transaction steps begun and not all done
(R47); nothing for any other command. -/
def OperandsFit.Fits : Instr → Prop
  | .powerOn contents =>
    contents.Pairwise (fun c d => c.1 < d.1) ∧ (∀ c ∈ contents, c.1 < Config.dramBytes) ∧ ∀ c ∈ contents, c.2 ≠ 0#8
  | .unknownCommand value => value = 0 ∨ 8 < value.toNat
  | .registerWriteDiscarded address _ => address.toNat ∈ [0, 1, 6, 7]
  | .transactionTimeout reached => 1 ≤ reached ∧ reached ≤ 7
  | _ => True

/-- A command passes its check exactly where its operands fit. -/
def OperandsFit.Statement (i : Instr) : Prop := i.wellFormed = true ↔ OperandsFit.Fits i

theorem OperandsFit.powerOn (contents : List Host.Cell) : OperandsFit.Statement (.powerOn contents) :=
  dramImageWf_iff contents

theorem OperandsFit.resetPin (asserted : Bool) : OperandsFit.Statement (.resetPin asserted) :=
  iff_of_true rfl trivial

theorem OperandsFit.start : OperandsFit.Statement (.start) :=
  iff_of_true rfl trivial

theorem OperandsFit.setupValidation : OperandsFit.Statement (.setupValidation) :=
  iff_of_true rfl trivial

theorem OperandsFit.planeInitialisation : OperandsFit.Statement (.planeInitialisation) :=
  iff_of_true rfl trivial

theorem OperandsFit.ledgerInitialisation : OperandsFit.Statement (.ledgerInitialisation) :=
  iff_of_true rfl trivial

theorem OperandsFit.resynchronisation : OperandsFit.Statement (.resynchronisation) :=
  iff_of_true rfl trivial

theorem OperandsFit.attend : OperandsFit.Statement (.attend) :=
  iff_of_true rfl trivial

theorem OperandsFit.halt : OperandsFit.Statement (.halt) :=
  iff_of_true rfl trivial

theorem OperandsFit.resume : OperandsFit.Statement (.resume) :=
  iff_of_true rfl trivial

theorem OperandsFit.railsOn : OperandsFit.Statement (.railsOn) :=
  iff_of_true rfl trivial

theorem OperandsFit.relink : OperandsFit.Statement (.relink) :=
  iff_of_true rfl trivial

theorem OperandsFit.reload : OperandsFit.Statement (.reload) :=
  iff_of_true rfl trivial

theorem OperandsFit.softReset : OperandsFit.Statement (.softReset) :=
  iff_of_true rfl trivial

theorem OperandsFit.unknownCommand (value : Word) : OperandsFit.Statement (.unknownCommand value) := by
  have nonzero : value = 0 ↔ value.toNat = 0 := by
    rw [BitVec.toNat_eq]; simp
  simp only [OperandsFit.Statement, Instr.wellFormed, OperandsFit.Fits, nonzero, commandOf, beq_iff_eq]
  split
  case h_9 =>
    simp only [imp_false] at *
    exact iff_of_true trivial (by omega)
  all_goals simp [*]

theorem OperandsFit.noticeCauseWrite (value : Word) : OperandsFit.Statement (.noticeCauseWrite value) :=
  iff_of_true rfl trivial

theorem OperandsFit.noticeMaskWrite (value : Word) : OperandsFit.Statement (.noticeMaskWrite value) :=
  iff_of_true rfl trivial

theorem OperandsFit.noticeAckWrite (value : Word) : OperandsFit.Statement (.noticeAckWrite value) :=
  iff_of_true rfl trivial

theorem OperandsFit.registerWriteDiscarded (address : BitVec 3) (value : Word) :
    OperandsFit.Statement (.registerWriteDiscarded address value) := by
  revert address
  simp only [OperandsFit.Statement, Instr.wellFormed, OperandsFit.Fits]
  decide

theorem OperandsFit.hostMemRead (address : BitVec 24) : OperandsFit.Statement (.hostMemRead address) :=
  iff_of_true rfl trivial

theorem OperandsFit.hostMemWrite (address : BitVec 24) (value : Word) : OperandsFit.Statement (.hostMemWrite address value) :=
  iff_of_true rfl trivial

theorem OperandsFit.sensorRead : OperandsFit.Statement (.sensorRead) :=
  iff_of_true rfl trivial

theorem OperandsFit.sensorReadComplete (result : SensorResult) : OperandsFit.Statement (.sensorReadComplete result) :=
  iff_of_true rfl trivial

theorem OperandsFit.transactionTimeout (reached : Nat) : OperandsFit.Statement (.transactionTimeout reached) := by
  simp [OperandsFit.Statement, Instr.wellFormed, OperandsFit.Fits]

theorem OperandsFit.staleTimerExpiry : OperandsFit.Statement (.staleTimerExpiry) :=
  iff_of_true rfl trivial

theorem OperandsFit.halfLifeExpiry : OperandsFit.Statement (.halfLifeExpiry) :=
  iff_of_true rfl trivial

theorem OperandsFit.loadSuccess : OperandsFit.Statement (.loadSuccess) :=
  iff_of_true rfl trivial

theorem OperandsFit.loadFailure : OperandsFit.Statement (.loadFailure) :=
  iff_of_true rfl trivial

theorem OperandsFit.scan : OperandsFit.Statement (.scan) :=
  iff_of_true rfl trivial

theorem OperandsFit.admissionPass : OperandsFit.Statement (.admissionPass) :=
  iff_of_true rfl trivial

theorem OperandsFit.fetchEnd : OperandsFit.Statement (.fetchEnd) :=
  iff_of_true rfl trivial

theorem OperandsFit.deadlineExpiry (slot : Fin 64) : OperandsFit.Statement (.deadlineExpiry slot) :=
  iff_of_true rfl trivial

theorem OperandsFit.haltFlush : OperandsFit.Statement (.haltFlush) :=
  iff_of_true rfl trivial

theorem OperandsFit.frameBoundary (order : BoundaryOrder) : OperandsFit.Statement (.frameBoundary order) :=
  iff_of_true rfl trivial

theorem OperandsFit.returnToFree : OperandsFit.Statement (.returnToFree) :=
  iff_of_true rfl trivial

theorem OperandsFit.finish : OperandsFit.Statement (.finish) :=
  iff_of_true rfl trivial

theorem OperandsFit.boardWrite : OperandsFit.Statement (.boardWrite) :=
  iff_of_true rfl trivial

theorem OperandsFit.echoWord (segment : Fin 4) (value : Word) (whileSending : Bool) :
    OperandsFit.Statement (.echoWord segment value whileSending) :=
  iff_of_true rfl trivial

theorem OperandsFit.riseStep : OperandsFit.Statement (.riseStep) :=
  iff_of_true rfl trivial

theorem OperandsFit.powerGoodAsserted : OperandsFit.Statement (.powerGoodAsserted) :=
  iff_of_true rfl trivial

theorem OperandsFit.powerGoodReleased : OperandsFit.Statement (.powerGoodReleased) :=
  iff_of_true rfl trivial

theorem OperandsFit.riseTimeout : OperandsFit.Statement (.riseTimeout) :=
  iff_of_true rfl trivial

theorem OperandsFit.blankingExpiry : OperandsFit.Statement (.blankingExpiry) :=
  iff_of_true rfl trivial

theorem OperandsFit.supplyAlert (asserted : Bool) : OperandsFit.Statement (.supplyAlert asserted) :=
  iff_of_true rfl trivial

theorem OperandsFit.idleHoldExpiry : OperandsFit.Statement (.idleHoldExpiry) :=
  iff_of_true rfl trivial

theorem OperandsFit.fallStep : OperandsFit.Statement (.fallStep) :=
  iff_of_true rfl trivial

theorem OperandsFit.wakeInputLow : OperandsFit.Statement (.wakeInputLow) :=
  iff_of_true rfl trivial

theorem OperandsFit.wakeInputHigh : OperandsFit.Statement (.wakeInputHigh) :=
  iff_of_true rfl trivial

theorem OperandsFit.wakeEvent : OperandsFit.Statement (.wakeEvent) :=
  iff_of_true rfl trivial

end Sys2Proof.Laws
end

