-- ==== Sys2Proof/Tests/Slice0.lean ====
section
/-! SUPPORT. Tests: ill-formed operands that the check refuses, values worked in the spec's own chapters, and, for each
statement with hypotheses, a state and operands that meet them. A name `test_…` states a result the spec works out; a name
`meets_…` states that hypotheses can be met, one clause to a line. -/

namespace Sys2Proof.Tests

-- One proof after another: a kernel evaluation waits for every proof before it, each wait on a thread of its own.
set_option Elab.async false

open Sys2Proof.Machine

/-! ## Well-formed operands -/

theorem test_powerOn_refuses_a_falling_address : (Instr.powerOn [(5, 1#8), (4, 1#8)]).wellFormed = false := by decide
theorem test_powerOn_refuses_the_first_byte_past_the_end : (Instr.powerOn [(33554432, 1#8)]).wellFormed = false := by decide
theorem test_powerOn_refuses_a_listed_blank : (Instr.powerOn [(0, 0#8)]).wellFormed = false := by decide
theorem test_unknownCommand_refuses_each_command :
    ∀ k : Fin 8, (Instr.unknownCommand (BitVec.ofNat 16 (k.val + 1))).wellFormed = false := by decide
theorem test_registerWriteDiscarded_refuses_the_registers_that_take_writes :
    ∀ a ∈ [2#3, 3#3, 4#3, 5#3], (Instr.registerWriteDiscarded a 0).wellFormed = false := by decide
theorem test_transactionTimeout_refuses_no_step_and_all_steps :
    (Instr.transactionTimeout 0).wellFormed = false ∧ (Instr.transactionTimeout 8).wellFormed = false := by decide

/-! ## States to start from -/

/-- A small panel's setup, which passes every check of R166. -/
def cfg : Setup :=
  { width := 64, height := 64, segments := 4, planeInit := 0, framePeriod := 20000, boardBase := 0x1000, planeBase := 0x3000,
    ledgerBase := 0x5000, scratchBase := 0x6000, libraryBase := 0x7000, imageBase := 0x3B000, imageSize := 0x1000,
    ghostThreshold := 0x42, partialWeight := 4, halfLife := 60, sensorAddress := 0x48, sensorRegister := 0,
    sensorInterval := 5, hysteresis := 2, staleLimit := 12, stepDelays := [20, 10, 20, 10, 5], riseTimeout := 20,
    blankingTime := 50, wakeQualify := 100, idleHold := 500, window := 16, errorLimit := 0x21, matchCount := 3, attempts := 2,
    pattern := [1, 2, 3, 4, 5, 6, 7, 8] }

/-- The bounds of chapter 3.7: 3 × i degrees. -/
def bounds : List Int := (List.range 13).map fun i => 3 * (i : Int)

/-- The part in READY with the rails OFF, before its first sensor read has completed. -/
def ready : State :=
  { State.reset with
    port := { Port.reset with partState := .ready, result := .accepted }
    setup := some cfg
    banks := { BankUnit.reset with bounds := bounds }
    monitor := { Monitor.reset with pollTimer := true, halfLifeTimer := true, reading := true } }

/-- The rails in another state. -/
def withRails (st : RailState) (s : State) : State := { s with rails := { s.rails with state := st } }

/-- A posting of one 8 × 8 rectangle in a mode. -/
def posting (mode : Nat) : Intake :=
  { postCount := 1, mark := 0, mode := mode, ghostPolicy := 0, conflictPolicy := 0, waitLimit := 10, x := 4, y := 4, w := 8,
    h := 8, tag := 0xBEEF, image := 0x3B000, pitch := 4 }

/-- A lane that carries a slot. -/
def laneOf (st : LaneState) (slot : Fin 64) : Lane :=
  { Lane.reset with state := st, slot := slot, seen := 1, mode := .gray, rect := ⟨4, 4, 8, 8⟩, index := 1, length := 2,
                    startFrame := some 7, claimed := 64 }

/-- A posting's status words waiting at the board writer: the finish of a lane. -/
def finishOf (lane : Option (Fin 32)) (slot : Fin 64) : Finish :=
  { Finish.refusal slot 1 0xBEEF .done Flags.none (some .gray) 0 with lane := lane }

/-- The part at work: the rails ON; lane 0 DRIVING, lane 1 CLOSING with a tile to carry, lane 3 CLOSING with its finish handed,
lane 28 ARMED with an INK request; slot 7 WAITING; bank A active and bank B being loaded. -/
def busy : State :=
  { ready with
    dram := [(0x1140, 9#8)]
    banks := { BankUnit.reset with bounds := bounds, active := some .a, a := ⟨.ready, some 8, #[[.raise, .lower]], 4⟩,
                                   b := ⟨.loading, some 9, #[], 0⟩, request := some ⟨.b, 9, .reading [0x1234]⟩ }
    monitor := { ready.monitor with lastGood := some 105, lastResult := some .good, stale := .running, status := .valid,
                                    inUse := some 105, band := some 9, reading := false }
    board := { Board.reset with
      slots := ((((Board.reset.slots.set 5 ⟨1, .running, some (posting 1)⟩).set 6 ⟨1, .running, some (posting 3)⟩).set 7
        ⟨1, .waiting, some (posting 1)⟩).set 9 ⟨1, .running, some (posting 1)⟩).set 10 ⟨1, .running, some (posting 1)⟩
      queue := [.header (.lanesInUse 4), .finish (finishOf (some 3) 9)], completion := 0x10003 }
    notice := { Notice.reset with kept := 3 }
    admission := { Admission.reset with list := [Waiting.new 7 (posting 1)] }
    lanes := ((((Vector.replicate 32 Lane.reset).set 0 (laneOf .driving 5)).set 1
      { laneOf .closing 10 with ending := .done, toClose := [(0, 0, 0)] }).set 3 (laneOf .closing 9)).set 28
      { laneOf .armed 6 with mode := .ink, index := 0 }
    closing := [1]
    frame := { FrameEngine.reset with timer := true, number := 9 }
    rails := { Rails.reset with state := .on, step := 5, lanesBusy := true } }

theorem busy_startLaw : busy.StartLaw := ⟨by decide, by decide⟩
theorem busy_timerLaw : busy.TimerLaw := by unfold State.TimerLaw; decide
theorem busy_bankLaw : busy.BankLaw :=
  ⟨by rintro _ _ _ ⟨⟩; decide, by rintro _ _ ⟨⟩ ⟨⟩; decide, by rintro _ ⟨⟩; decide⟩
theorem busy_laneLaw : busy.LaneLaw where
  start := busy_startLaw
  driving := by decide +kernel
  armed := by decide +kernel
  length := by decide +kernel
  entries := by rintro (_ | _) <;> simp [busy, BankUnit.get, Config.maxFrames]
  busy := by decide +kernel
  idleHold := by decide
  falling := by decide
  unconfigured := by decide
  fetch := by rintro _ ⟨⟩
  chosen := by rintro _ ⟨⟩
  closes := by decide +kernel
  closing := by
    rintro r hr n hn
    simp only [busy, List.mem_cons, List.not_mem_nil, or_false] at hr
    rcases hr with rfl | rfl <;> cases hn
    decide
  once := by decide
  served := by decide +kernel
theorem busy_refsLaw : busy.RefsLaw := by intro id; cases id <;> decide +kernel
theorem busy_slotLaw : busy.SlotLaw :=
  ⟨by decide +kernel, by decide, by decide +kernel, by decide +kernel, by decide, by decide +kernel, by rintro _ ⟨⟩, by rintro _ ⟨⟩⟩
theorem busy_placeLaw : busy.PlaceLaw :=
  ⟨by rintro _ ⟨⟩, by decide, by decide, by decide, by decide +kernel, by decide +kernel, by rintro _ ⟨⟩⟩

/-- The law of places does not look at the rails or the links. -/
theorem placeLaw_with (r : Rails) (l : Vector Link 4) : { busy with rails := r, links := l }.PlaceLaw :=
  ⟨busy_placeLaw.reading, busy_placeLaw.unconfigured, busy_placeLaw.width, busy_placeLaw.height, busy_placeLaw.inside,
    busy_placeLaw.tiles, busy_placeLaw.exam⟩
theorem busy_completionLaw : busy.CompletionLaw := by unfold State.CompletionLaw; decide
theorem busy_statusLaw : busy.StatusLaw := by
  constructor <;> simp [busy, ready, Monitor.reset]

theorem busy_setupLaw : busy.SetupLaw := ⟨by rintro ⟨⟩, by decide⟩

theorem busy_writerLaw : busy.WriterLaw := .inl rfl

/-! No pixel of `busy` is owned or unknown, and its ledger and scratch are zeros. -/

theorem busy_read (a : Nat) (h : a ≠ 0x1140) : busy.dram.read a = 0#8 := by
  simp [Memory.read, busy, Ne.symm h, Memory.blank]

theorem busy_word (x y : Nat) : busy.word x y = 0#16 := by
  have far : 0x3000 ≤ pixelAddress busy.cfg x y := Nat.le_add_right _ _
  rw [State.word, Memory.readWord, busy_read _ (by omega), busy_read _ (by omega)]
  rfl

theorem busy_readBytes (a n : Nat) (h : 0x1140 < a) : busy.dram.readBytes a n = List.replicate n 0#8 := by
  rw [Memory.readBytes_eq (by decide)]
  refine List.ext_getElem (by simp) fun i _ _ => ?_
  simp only [List.getElem_map, List.getElem_range, List.getElem_replicate]
  exact busy_read _ (by omega)

theorem busy_entry (tx ty : Nat) : readEntry busy.cfg tx ty busy.dram = ⟨0, 0, 0, 0⟩ := by
  have far : 0x5000 ≤ ledgerAddress busy.cfg tx ty := Nat.le_add_right _ _
  rw [readEntry, busy_readBytes _ _ (by omega)]
  decide

theorem busy_scratch (n : Fin 32) (tx ty : Nat) : readScratch busy.cfg n tx ty busy.dram = ⟨0, 0, false⟩ := by
  have far : 0x6000 ≤ scratchAddress busy.cfg n tx ty := Nat.le_add_right _ _
  rw [readScratch, busy_readBytes _ _ (by omega)]
  decide

theorem busy_stillUnknown (n : Fin 32) (tx ty : Nat) : busy.stillUnknown n tx ty = 0 := by
  simp [State.stillUnknown, busy_word, pixelUnknown]

theorem busy_planeLaw : busy.PlaneLaw where
  setup _ := ⟨bounds, by decide, by decide⟩
  owner _ x y _ _ h := by rw [busy_word] at h; exact absurd h (by decide)
  passed := by rintro ⟨⟩
  first := by decide +kernel
  fetch := by rintro _ ⟨⟩

theorem busy_closeDue (tx ty : Nat) (n : Fin 32) : busy.closeDue tx ty n = 0 := by
  have none_kept : ∀ n : Fin 32, ∀ t ∈ (busy.lane n).toClose, t.2.2 = 0 := by decide +kernel
  rw [State.closeDue]
  split
  · rename_i t h
    simp [busy_scratch, none_kept n t (List.mem_of_find?_eq_some h)]
  · rfl

theorem busy_unknownWith (closing : List (Fin 32)) (tx ty : Nat) : busy.unknownWith closing tx ty = 0 := by
  have due : closing.map (busy.closeDue tx ty) = closing.map fun _ => 0 := List.map_congr_left fun n _ => busy_closeDue tx ty n
  simp [State.unknownWith, State.unknownIn, State.completedUnknown, busy_scratch, busy_stillUnknown, busy_word, pixelUnknown, due]

theorem busy_ledgerLaw : busy.LedgerLaw where
  residue _ tx ty _ _ := by rw [busy_entry]; decide
  unknown _ tx ty _ _ := by simp [busy_entry, busy_unknownWith]
  closes n hn := by
    obtain rfl : n = 1 := by simpa [busy] using hn
    have kept : ∀ t ∈ (busy.lane 1).toClose, t.2.2 = 0 := by decide +kernel
    exact ⟨by decide +kernel, kept⟩
  scratch _ n tx ty _ := by
    simp [busy_scratch, busy_stillUnknown, busy_word, pixelOwnedBy, pixelOwned]

/-- All laws hold together of the part at work, so no statement of one kept by every step is about nothing. -/
theorem busy_safe : busy.Safe :=
  ⟨by decide, busy_timerLaw, busy_bankLaw, busy_refsLaw, busy_laneLaw, busy_slotLaw, busy_setupLaw, busy_placeLaw, busy_planeLaw,
    busy_ledgerLaw, busy_writerLaw, busy_completionLaw, busy_statusLaw⟩

/-- The state after a command; `exec_after` says that it is the one `exec` answers. -/
def after (c : Instr) (s : State) : State :=
  match exec c s with
  | .next t => t
  | .fault _ => s
  | .refused _ => s

theorem exec_after (c : Instr) (s : State) : exec c s = .next (after c s) := by
  obtain ⟨t, h⟩ := exec_answers c s
  simp [after, h]

/-! ## Statements about the whole part -/

theorem meets_StepRunsTheFrontCommand : State.reset.pending = [] := rfl

theorem meets_StateMovesOnlyByItsEvents :
    (after (.resetPin true) busy).pins.reset ≠ busy.pins.reset ∧
    (after .powerGoodAsserted busy).pins.powerGood ≠ busy.pins.powerGood ∧
    (after (.supplyAlert true) ready).pins.alert ≠ ready.pins.alert ∧
    (after .wakeInputLow busy).pins.wakeLow ≠ busy.pins.wakeLow ∧
    ((after (.frameBoundary ⟨true, .later⟩) (withRails .rising { ready with frame := busy.frame })).frame.number ≠ 9) ∧
    ((after .halfLifeExpiry busy).monitor.ticks ≠ busy.monitor.ticks) ∧
    (after .finish { busy with board := { busy.board with queue := [.completion] } }).board.completion ≠ busy.board.completion ∧
    (busy.lane 0).state ≠ .free ∧ (busy.lane 2).state = .free := by decide +kernel

/-- The lanes' law, with a lane that a pass takes out of FREE. -/
theorem meets_StateMovesOnlyByItsEvents_outOfFree : busy.LaneLaw ∧ (busy.lane 2).state = .free := ⟨busy_laneLaw, by decide⟩

theorem meets_StateMovesOnlyByItsEvents_inFault :
    (withRails .fault busy).StartLaw ∧ (withRails .fault busy).rails.state = .fault ∧
    (after .railsOn (withRails .fault busy)).rails.state ≠ .fault :=
  ⟨⟨by decide, by decide⟩, by decide, by decide +kernel⟩

theorem cfg_validates : ∃ bounds, validateSetup busy.cfg bounds = .none := ⟨bounds, by decide⟩

/-- The operands of the three resets. -/
theorem meets_ResetsLeaveTheStatedValues :
    (Instr.powerOn [(0, 1#8), (33554431, 0xFF#8)]).wellFormed = true ∧ busy.pins.reset = false := by decide

/-- The premises of each clause about a reset inside an operation, and an examination that has read one tile of four. -/
theorem meets_ResetsInsideOperationsLeaveEachWordOldOrNew :
    (busy.dram.wf = true ∧ busy.PlaceLaw ∧ ∃ bounds, validateSetup busy.cfg bounds = .none) ∧
    ({ busy with start := .planeDue }.start = .planeDue ∧ { busy with start := .ledgerDue }.start = .ledgerDue ∧
      { busy with start := .boardDue }.start = .boardDue) ∧
    (busy.rails.state = .on ∧ busy.frame.timer = true ∧ 63 < busy.cfg.width ∧ 63 < busy.cfg.height) ∧
    (let l := { Link.reset with state := .up, frame := .checked }
     ((setLink 0 l busy).link 0).frame ≠ .none ∧ ((setLink 0 l busy).link 0).judged = false) ∧
    [(1, 0), (0, 1), (1, 1)] <:+ rectTiles ⟨8, 8, 16, 16⟩ ∧
    (∀ r ∈ [.header (.frameNumber 7), .waiting 7 1, .running 5 1 .gray 31, .completion],
      { busy with board := { busy.board with queue := [r] } }.board.queue = [r]) :=
  ⟨⟨by decide, busy_placeLaw, cfg_validates⟩, ⟨rfl, rfl, rfl⟩, by decide, by decide +kernel, by decide, fun _ _ => rfl⟩

/-- A reset after the first word of a RUNNING write has its mode and lane and the old status word (R67); after the first word of a
32-bit field, its low word (R71). -/
theorem test_a_reset_inside_a_board_write :
    let cut := fun r => resetDram (.boardWrite 1) { busy with board := { busy.board with queue := [r] } }
    let half := 0x1000 + 256 + 64 * 5 + 32
    (cut (.running 5 1 .gray 31)).readBytes half 8 = [0, 0, 0, 0, 0, 0, 1, 31] ∧
    (cut (.header (.frameNumber 0x01020304))).readBytes (0x1000 + 36) 4 = [4, 3, 0, 0] := by decide +kernel

/-- A reset inside the plane pass finds some words at their new value, UNKNOWN, and the rest at their old one (R9). -/
theorem test_a_reset_inside_the_plane_pass :
    let s := { ready with setup := some { cfg with width := 4, height := 2, planeInit := 1 }, start := .planeDue }
    let m := resetDram (.planePass [0x1800, 0x1801]) s
    m.readWord 0x3000 = 0x40FF#16 ∧ m.readWord 0x3002 = 0x40FF#16 ∧ m.readWord 0x3004 = 0#16 ∧ m.readWord 0x3008 = 0#16 := by
  decide +kernel

/-- Each law kept by every step has a state that meets it, and a step from it that the law is kept by. -/
theorem meets_EveryStepKeeps :
    busy.Safe ∧ busy.StartLaw ∧ step busy = .next (backgroundTick busy) ∧
      step { busy with pending := [.finish] } = exec .finish { busy with pending := [] } := ⟨busy_safe, busy_startLaw, rfl, rfl⟩

/-- The premises of the ledger law's last clause: its tiles to the last, none under a lane at work in a part whose lanes are
FREE. -/
theorem meets_EveryStepKeepsTheLedgerLaw :
    busy.LedgerLaw ∧ busy.configured = true ∧ (3 < busy.cfg.width / 16 ∧ 3 < busy.cfg.height / 16) ∧
    (∀ n : Fin 32, busy.works n 3 3 = false) ∧
    ∀ n ∈ busy.closing, ∀ t ∈ (busy.lane n).toClose, (t.1, t.2.1) ≠ (3, 3) :=
  ⟨busy_ledgerLaw, by decide, by decide, by decide +kernel, by decide +kernel⟩

theorem meets_PartStateAndCausesMoveByTheirRules :
    (State.reset.StartLaw ∧ (after .start State.reset).port.partState ≠ State.reset.port.partState ∧
      ready.StartLaw ∧ (after .halt ready).port.partState ≠ ready.port.partState) ∧
    (Instr.softReset).resets = true ∧ Instr.start.resets = false ∧
    (after .start { State.reset with notice := { Notice.reset with railFault := true } }).notice.railFault = true :=
  ⟨⟨⟨by decide, by decide⟩, by decide, ⟨by decide, by decide⟩, by decide⟩, by decide⟩

/-- The part in CONFIGURING, while START reads the setup record. -/
def configuring : State :=
  { State.reset with port := { Port.reset with partState := .configuring }, start := .reading [0x2416] }

/-- Both the setup in force and none, in CONFIGURING, where no region is known. -/
theorem meets_PartWritesOnlyPartOwnedBytes :
    (configuring.setup = none ∧ configuring.SetupLaw ∧ configuring.LaneLaw ∧ configuring.SlotLaw) ∧
    (busy.StartLaw ∧ busy.PlaceLaw) ∧ ¬ PartOwned busy.cfg 0 ∧ ¬ PartOwned busy.cfg 0x2FFF ∧ ¬ PartOwned busy.cfg 0x101F ∧
      ¬ PartOwned busy.cfg 0x111F ∧ PartOwned busy.cfg 0x3000 ∧ busy.SetupLaw := by
  refine ⟨⟨rfl, ⟨fun _ => ⟨rfl, .inr ⟨_, rfl⟩⟩, by decide⟩, ?_, ?_⟩, ⟨busy_startLaw, busy_placeLaw⟩, ?_, ?_, ?_, ?_, ?_,
    busy_setupLaw⟩
  · constructor
    case start => exact ⟨by decide, by decide⟩
    case entries => rintro (_ | _) <;> simp [configuring, State.reset, BankUnit.reset, BankUnit.get, Bank.reset]
    case fetch => rintro _ ⟨⟩
    case chosen => rintro _ ⟨⟩
    case closing => rintro _ ⟨⟩
    all_goals decide +kernel
  · constructor
    case copying => rintro _ ⟨⟩
    case exam => rintro _ ⟨⟩
    all_goals decide +kernel
  all_goals unfold PartOwned; decide +kernel

/-! ## Statements about the port and the commands -/

/-- A cause that COMPLETION does not set, and its mask bit; and the premises of the writes. -/
theorem meets_RegistersReadAndTakeTheirFields :
    ({ ready with notice := { Notice.reset with halted := true, mask := 0x80 } }.noticeLine = true) ∧ ready.noticeLine = false ∧
    ready.pins.reset = false ∧ (after (.resetPin true) ready).pins.reset = true ∧
    (0x0040#16).getLsbD 6 = true ∧ { ready.notice with blockedWrite := true }.blockedWrite = true ∧
    ready.notice.blockedWrite = false := by decide

/-- Both ends of the plane, of the header's part half and of the last slot's part half, and the words beside them. -/
theorem meets_HostAccessesAreWhole :
    { ready with pins := { ready.pins with reset := true } }.pins.reset = true ∧ (ready.pins.reset = false ∧ ready.setup = some cfg ∧ State.reset.setup = none ∧ ready.port.capture = none ∧
      { ready.port with capture := some 0x3000 }.capture = some 0x3000) ∧
    (2 * (0x1800#24).toNat = 0x3000 ∧ 2 * (0xFFFFFF#24).toNat = 0x1FFFFFE) ∧
    (∀ a ∈ [0x3000, 0x4FFE, 0x1020, 0x10FE, 0x20E0, 0x20FE], PartOwned cfg a) ∧
    (∀ a ∈ [0x2FFE, 0x101E, 0x1100, 0x20DE, 0x2100, 0x1FFFFFE], ¬ PartOwned cfg a) := by
  refine ⟨rfl, by decide, by decide, ?_, ?_⟩
  · simp only [List.forall_mem_cons, List.not_mem_nil, false_implies, implies_true, and_true]
    exact ⟨.inl (by decide), .inl (by decide), .inr (.inr (.inr (.inl (by decide)))), .inr (.inr (.inr (.inl (by decide)))),
      .inr (.inr (.inr (.inr ⟨63, by decide⟩))), .inr (.inr (.inr (.inr ⟨63, by decide⟩)))⟩
  · intro a ha
    simp only [List.mem_cons, List.not_mem_nil, or_false] at ha
    rintro (h | h | h | h | ⟨slot, h⟩) <;> simp only [cfg] at h <;> omega

theorem meets_CommandsAreJudgedByTheirConditions :
    (ready.Accepts .halt ∧ ¬ ready.Accepts .start ∧ ¬ ready.Accepts .railsOn ∧ ready.pins.reset = false) ∧
    (State.reset.Accepts .start ∧ ¬ State.reset.Accepts .relink) ∧ busy.Accepts .reload ∧
    (withRails .fault ready).Accepts .railsOn ∧ { ready with pins := { ready.pins with reset := true } }.pins.reset = true ∧
    (0#16 = 0 ∨ 8 < (0#16).toNat) ∧ 8 < (9#16).toNat := by
  refine ⟨⟨?_, ?_, ?_, by decide⟩, ⟨?_, ?_⟩, ?_, ?_, by decide⟩ <;> unfold State.Accepts <;>
    simp [State.reset, Port.reset, Monitor.reset, Rails.reset, ready, busy, withRails, State.configured]

/-- The states the four commands are accepted in; a scan in progress at ATTEND and none; and HALT where a scan copies a posting,
where it stands at a slot with nothing, with a posting or with a withdraw, where it has visited the last slot and where it has
read one or none of the override words; and where a pass makes an examination. -/
theorem meets_PartStateCommandsTakeEffect :
    (State.reset.pins.reset = false ∧ State.reset.port.partState = .unconfigured ∧ ready.port.partState = .ready ∧
      ready.board.scan = none ∧ (setPartState .halted ready).port.partState = .halted) ∧
    (∀ k ∈ [(⟨0, 63, false, some [0x0001#16], false, true, none⟩ : Scan), ⟨0, 3, false, none, false, true, none⟩,
        ⟨0, 64, true, none, false, true, none⟩, Scan.start 5, ⟨5, 0, false, none, false, false, some 7#16⟩],
      { ready with board := { ready.board with scan := some k } }.board.scan = some k) ∧
    (let k : Scan := ⟨0, 3, false, none, false, true, none⟩
     let s := fun status seen => { ready with
       dram := [(0x1000 + 256 + 64 * 3, 1#8), (0x1000 + 256 + 64 * 3 + 1, 1#8)]
       board := { ready.board with scan := some k, slots := ready.board.slots.set 3 ⟨seen, status, none⟩ } }
     let halted := fun status seen => ((after .halt (s status seen)).board.scan, (after .halt (s status seen)).board.cursor)
     halted .finished 1 = (none, 0) ∧ halted .waiting 0 = (none, 0) ∧
     halted .idle 0 = (some { k with ending := true, copy := some [0x0101#16] }, 4) ∧
     halted .running 1 = (some { k with ending := true }, 0)) ∧
    { ready with admission := { ready.admission with
      passActive := true, exam := some ⟨7, ⟨4, 4, 8, 8⟩, .gates⟩ } }.port.partState = .ready := by decide +kernel

/-- A link FAULTED with the rails in FAULT, with the rails OFF, and with the rails FALLING at the first and the last step. -/
theorem meets_RelinkStartsTraining :
    let s := setLink 1 { Link.reset with state := .faulted } ready
    (s.pins.reset = false ∧ s.configured = true ∧ (s.link 1).state = .faulted ∧ (s.link 0).state ≠ .faulted) ∧
    (s.rails.state = .off ∧ s.pins.alert = false ∧ s.cfg.stepDelays.getD 0 0 ≠ 0) ∧
    (withRails .fault s).rails.state = .fault ∧
    ∀ step ∈ [1, 5], let t := withRails .falling { s with rails := { s.rails with stepTimer := true, step := step } }
      t.rails.state = .falling ∧ t.rails.stepTimer = true ∧ t.cfg.stepDelays.getD (t.rails.step - 1) 0 ≠ 0 := by decide

theorem meets_ReloadFormsOneRequest :
    let s := { busy with banks := { busy.banks with request := none } }
    (busy.configured = true ∧ busy.monitor.status = .valid ∧ busy.banks.request.isSome = true) ∧
    (s.monitor.band = some 9 ∧ s.banks.request = none ∧ s.banks.active = some .a ∧ (s.banks.get .b).refs = 0) ∧
    (let u := { s.banks with active := some .b }
     u.active = some .b ∧ (u.get .a).refs ≠ 0) ∧
    { s.banks with active := none }.active = none := by decide

/-! ## Statements about START -/

/-- A DRAM that holds these records and nothing else. -/
def holding (records : List (Nat × List Byte)) : Memory := records.foldl (fun m r => Memory.write m r.1 r.2) []

/-- A DRAM that holds the setup record of `cfg` and its band bounds. -/
def record : Memory :=
  holding
    [(0, [64, 0, 64, 0, 4, 0, 0x20, 0x4E, 0, 0x10, 0, 0, 0, 0x30, 0, 0, 0, 0x50, 0, 0, 0, 0x60, 0, 0, 0, 0x70, 0, 0, 0, 0xB0, 3,
        0, 0, 0x10, 0, 0, 0x42, 4, 60, 0, 0x48, 0, 5, 2, 12, 0, 20, 10, 20, 10, 5, 20, 50, 100, 0xF4, 1, 16, 0, 0x21, 3, 2, 0, 0,
        0, 1, 2, 3, 4, 5, 6, 7, 8]),
      (0x7000, [0, 3, 6, 9, 12, 15, 18, 21, 24, 27, 30, 33, 36])]

/-- START in CONFIGURING over a DRAM. -/
def starting (m : Memory) : State :=
  { State.reset with dram := m, port := { Port.reset with partState := .configuring }, start := .reading [] }

/-- The record decodes to the setup it was written for, which passes; a DRAM of zeros fails. -/
theorem meets_SetupValidationReadsAndDecides :
    (starting record).start = .reading [] ∧ (starting []).start = .reading [] ∧
    Setup.decode ((readStartWords 42 [] record).take 35) = cfg ∧
    boundsOf ((readStartWords 42 [] record).drop 35) = bounds ∧ validateSetup cfg bounds = .none ∧
    validateSetup (Setup.decode ((readStartWords 42 [] []).take 35)) (boundsOf ((readStartWords 42 [] []).drop 35)) ≠ .none := by
  decide +kernel

/-- Each check of R166 fails just past a limit of its own, and the limit itself passes. -/
theorem meets_SetupChecksStopAtTheFirstThatFails :
    validateSetup { cfg with width := 63 } bounds = .badGeometry ∧
    validateSetup { cfg with segments := 0 } bounds = .badSegments ∧
    validateSetup { cfg with framePeriod := 4999 } bounds = .badTiming ∧
    validateSetup { cfg with framePeriod := 5000 } bounds = .none ∧
    validateSetup { cfg with imageSize := 33554432 - 0x3B000 + 1 } bounds = .badRegion ∧
    validateSetup { cfg with imageSize := 33554432 - 0x3B000 } bounds = .none ∧
    validateSetup { cfg with boardBase := 0x2000 } bounds = .badRegion ∧
    validateSetup cfg (bounds.set 12 33) = .badBands ∧ validateSetup cfg (bounds.set 12 86) = .badBands ∧
    validateSetup cfg (bounds.set 12 85) = .none ∧
    validateSetup { cfg with attempts := 16 } bounds = .badRange ∧ validateSetup { cfg with attempts := 15 } bounds = .none := by
  decide +kernel

/-- Chapter 10.8: the region plan of the largest panel passes, a plane base 4 KiB lower does not. -/
theorem test_the_largest_panel_of_10_8 :
    let c := { cfg with width := 3200, height := 2400, boardBase := 0x1000, libraryBase := 0x3000, ledgerBase := 0x37000,
                        scratchBase := 0x72000, planeBase := 0x41C000, imageBase := 0x12C2000, imageSize := 13885440 }
    validateSetup c bounds = .none ∧ validateSetup { c with planeBase := 0x41B000 } bounds = .badRegion ∧
    validateSetup { c with planeBase := 0x41B000, width := 3208 } bounds = .badGeometry := by decide +kernel

theorem meets_StartPassesWriteEveryPixelAndEntry :
    (∀ k ∈ [0, 1, 2], let c := { cfg with planeInit := k }
      let s := { starting record with start := .planeDue, setup := some c }
      s.dram.wf = true ∧ s.start = .planeDue ∧ s.setup = some c ∧ c.planeInit = k) ∧
    ∀ k ∈ [0, 1, 2], let c := { cfg with planeInit := k }
      let s := { starting record with start := .ledgerDue, setup := some c }
      s.dram.wf = true ∧ s.start = .ledgerDue ∧ s.setup = some c ∧ c.planeInit = k ∧
      c.planeBase + c.width * c.height * 2 ≤ c.ledgerBase := by decide +kernel

/-- Both values of the override's valid flag. -/
theorem meets_ResynchronisationEntersReady :
    let s := { starting record with start := .boardDue, setup := some cfg }
    s.start = .boardDue ∧ s.setup = some cfg ∧ (s.dram.readWord (cfg.boardBase + 2)).getLsbD 0 = false ∧
    ((s.dram.write 0x1002 [1#8]).readWord (cfg.boardBase + 2)).getLsbD 0 = true := by decide +kernel

/-! ## Statements about the temperature, the bands and the banks -/

/-- The override clear with and without a reading, and set; the first and the last step a timeout can find. -/
theorem meets_SensorTransactionsRunInOrder :
    (ready.monitor.pollTimer = true ∧ ready.monitor.reading = true ∧ (1 ≤ 1 ∧ 7 ≤ 7)) ∧
    (after .sensorRead ready).monitor.held = some 0#16 ∧ (after .sensorRead busy).monitor.held = some 0#16 ∧
    ((ready.dram.readWord (ready.cfg.boardBase + 2)).getLsbD 0 = false ∧ ready.monitor.lastGood = none) ∧
    (busy.monitor.pollTimer = true ∧ busy.monitor.lastGood = some 105 ∧ busy.monitor.lastResult = some .good ∧
      (busy.dram.readWord (busy.cfg.boardBase + 2)).getLsbD 0 = false) ∧
    (Memory.readWord [(0x1002, 1#8)] (busy.cfg.boardBase + 2)).getLsbD 0 = true := by decide +kernel

/-- R51: the value word is read before the flag word. A host that writes both between the two reads finds the flag it has set with
the value of before; one that writes them before the read finds both; and one whose writes the read start falls between finds the
flag still 0. -/
theorem test_override_value_is_read_before_its_flag :
    let value := after (.hostMemWrite 0x800#24 120#16)
    let flag := after (.hostMemWrite 0x801#24 1#16)
    let copy := fun s : State => ((readTick s).monitor.overrideFlag, (readTick s).monitor.overrideValue)
    copy (flag (value (after .sensorRead ready))) = (true, 0) ∧ copy (after .sensorRead (flag (value ready))) = (true, 120) ∧
    copy (after .sensorRead (value ready)) = (false, 120) := by decide +kernel

/-- R51, R66: HALT finds a scan that has read no override word yet; the scan reads both, visits no slot and ends. -/
theorem test_halt_leaves_a_scan_its_override_read :
    let s := after .halt (after .attend { ready with dram := holding [(0x1000, [120, 0, 1, 0]), (0x1100, [1, 0])] })
    let t := backgroundTick (backgroundTick s)
    s.board.scan.isSome = true ∧ s.monitor.status = .none ∧ t.monitor.status = .override ∧ t.monitor.inUse = some 120 ∧
    t.board.scan = none ∧ (t.slot 0).status = .idle ∧ t.dram = s.dram ∧ (after .scan s).monitor.inUse = some 120 ∧
    (after .scan s).board.scan = none := by decide +kernel

/-- Both ends of the plausible range and the first reading outside each. -/
theorem meets_SensorReadsCompleteByTheirRange :
    ready.monitor.reading = true ∧ (0xD800#16).toInt / 64 = -160 ∧ (0x553F#16).toInt / 64 = 340 ∧
    (0xD7FF#16).toInt / 64 < -160 ∧ 340 < (0x5540#16).toInt / 64 := by decide

/-- Chapter 3.7: the five readings around band 8, with hysteresis 2. -/
theorem test_hysteresis_of_3_7 :
    nextBand bounds 2 (some 8) 105 = 8 ∧ nextBand bounds 2 (some 8) 108 = 8 ∧ nextBand bounds 2 (some 8) 110 = 9 ∧
    nextBand bounds 2 (some 9) 106 = 9 ∧ nextBand bounds 2 (some 9) 105 = 8 ∧ toQuarterDegrees 0x1B80 = 110 ∧
    rawBand bounds (-5) = 0 := by decide

theorem meets_BandsMoveByTheirBoundsAndHysteresis :
    (ready.StatusLaw ∧ (ready.monitor.reading = true ∧ ready.monitor.held = none ∧ ready.configured = true ∧ ready.monitor.overrideFlag = false ∧
      ready.monitor.lastGood = none ∧ ready.monitor.band = none ∧ ready.banks.active = none ∧ ready.banks.request = none ∧
      ready.banks.a.refs = 0 ∧ ready.port.partState = .ready) ∧
      (-160 ≤ (0xD800#16).toInt / 64 ∧ (0x553F#16).toInt / 64 ≤ 340)) ∧
    8 < rawBand bounds (110 - 2) ∧ (rawBand bounds (105 - 2) ≤ 9 ∧ rawBand bounds (105 + 2) < 9) ∧
    (rawBand bounds (106 - 2) ≤ 9 ∧ 9 ≤ rawBand bounds (106 + 2)) ∧ (rawBand bounds 107 < 9 ∧ rawBand bounds 107 < 11) ∧
    (ready.monitor.reading = true ∧ ready.monitor.held = none ∧ ready.monitor.overrideFlag = false) ∧
    (let s := { busy with monitor := { busy.monitor with reading := true } }
     s.monitor.reading = true ∧ s.monitor.held = none ∧ s.monitor.overrideFlag = false ∧ s.monitor.band = some 9 ∧
     nextBand s.banks.bounds s.cfg.hysteresis s.monitor.band ((0x1F00#16).toInt / 64) = 10 ∧
     s.monitor.inUse ≠ some ((0x1F00#16).toInt / 64) ∧ s.banks.request = some ⟨.b, 9, .reading [0x1234]⟩ ∧
     { s.banks with request := some ⟨.b, 9, .deferred⟩ }.request = some ⟨.b, 9, .deferred⟩ ∧
     (let u := { s.banks with request := none, b := { s.banks.b with refs := 1 } }
      u.request = none ∧ (u.get .b).refs ≠ 0 ∧ u.active = some BankId.b.other)) :=
  ⟨⟨by constructor <;> simp [ready, Monitor.reset], by decide, by decide⟩, by decide +kernel⟩

theorem meets_MonitorTimersExpire :
    busy.StatusLaw ∧ busy.monitor.stale = .running ∧ busy.monitor.lastResult = some .good ∧ busy.monitor.halfLifeTimer = true ∧
    (let s := { busy with monitor := { busy.monitor with lastResult := some .failed, status := .held } }
     s.StatusLaw ∧ s.monitor.overrideFlag = false ∧ s.monitor.lastGood = some 105 ∧ s.monitor.lastResult = some .failed) := by
  refine ⟨busy_statusLaw, by decide, by decide, by decide, ?_, by decide⟩
  constructor <;> simp [busy, ready, Monitor.reset]

/-- Chapter 2.7: the entry decoded, with length 7, and in a CLEAN table. -/
theorem test_entry_of_2_7 :
    let codes : List Byte := 0x16#8 :: 0x39#8 :: List.replicate 14 0#8
    checkEntry false (6#8 :: codes) = .good [.lower, .raise, .raise, .zero, .raise, .lower] ∧
    checkEntry false (7#8 :: codes) = .bad .badCode 6 ∧ checkEntry true (6#8 :: codes) = .bad .unbalanced 0 := by
  decide +kernel

/-- One RAISE frame and one LOWER frame. -/
def twoFrames : List Byte := 2#8 :: 9#8 :: List.replicate 15 0#8

/-- A load of one entry a thousand times over succeeds with it. -/
theorem loadEntries_same (band : Nat) (bank : BankId) (n k : Nat) :
    loadEntries band bank n k (List.replicate n twoFrames).flatten (List.replicate k [.raise, .lower]) =
      .success (List.replicate (k + n) [.raise, .lower]) := by
  induction n generalizing k with
  | zero => simp [loadEntries]
  | succ n ih =>
    have good : ∀ clean, checkEntry clean twoFrames = .good [.raise, .lower] := by decide +kernel
    have some_ : ¬ (decide (k = Config.tableEntries) && (List.replicate k [DriveCode.raise, .lower]).all List.isEmpty) = true := by
      cases k <;> simp [Config.tableEntries, List.all_replicate]
    have first : (twoFrames ++ (List.replicate n twoFrames).flatten).take Config.entryBytes = twoFrames := by
      rw [List.take_append_of_le_length (by decide)]; decide
    have rest : (twoFrames ++ (List.replicate n twoFrames).flatten).drop Config.entryBytes =
        (List.replicate n twoFrames).flatten := by
      rw [List.drop_append_of_le_length (by decide)]; rfl
    rw [List.replicate_succ, List.flatten_cons, loadEntries, if_neg (by simpa using some_), first, rest, good]
    have next := ih (k + 1)
    rw [List.replicate_succ] at next
    dsimp only
    rw [next]
    congr 2
    omega

/-- A thousand times and 24 over, a whole block. -/
theorem loadBlock_same :
    loadBlock 9 .b (List.replicate 1024 twoFrames).flatten = .success (List.replicate 1024 [.raise, .lower]) := by
  have h := loadEntries_same 9 .b 1024 0
  rw [Nat.zero_add] at h
  exact h

theorem length_copies {α : Type} (n : Nat) (l : List α) : (List.replicate n l).flatten.length = n * l.length := by simp

/-- The words of two such entries. -/
def twoEntries : List Word := wordsOf (twoFrames ++ twoFrames)

theorem bytesOf_twoEntries (n : Nat) :
    bytesOf (List.replicate n twoEntries).flatten = (List.replicate (2 * n) twoFrames).flatten := by
  have append : ∀ u v : List Word, bytesOf (u ++ v) = bytesOf u ++ bytesOf v := by
    intro u v
    induction u with
    | nil => rfl
    | cons w u ih => simp [bytesOf, ih]
  induction n with
  | zero => rfl
  | succ n ih =>
    have pair : bytesOf twoEntries = twoFrames ++ twoFrames := by decide
    rw [show 2 * (n + 1) = 2 * n + 1 + 1 by omega, List.replicate_succ, List.flatten_cons, append, ih, pair,
      List.replicate_succ, List.replicate_succ]
    simp

/-- A load that has read its whole block passes every check; one whose first byte is 65 fails at its first entry. -/
theorem meets_LoadsEndReadyOrFailed :
    (let words := (List.replicate 512 twoEntries).flatten
     let s := { busy with banks := { busy.banks with request := some ⟨.b, 9, .reading words⟩ } }
     s.configured = true ∧ words.length ≤ 8704 ∧
     loadBlock 9 .b (bytesOf words ++ s.dram.readBytes (s.cfg.libraryBase + 64 + 17408 * 9 + 2 * words.length)
       (17408 - 2 * words.length)) = .success (List.replicate 1024 [.raise, .lower])) ∧
    (let words := [0x0041#16]
     loadBlock 9 .b (bytesOf words ++ busy.dram.readBytes (busy.cfg.libraryBase + 64 + 17408 * 9 + 2 * words.length)
       (17408 - 2 * words.length)) = .failure ⟨.badLength, 9, .b, 0, 0, 0, 0⟩) := by
  have len : (List.replicate 512 twoEntries).flatten.length = 8704 := by rw [length_copies]; decide
  have none_left : ∀ (m : Memory) (a : Nat), m.readBytes a 0 = [] := fun _ _ => rfl
  refine ⟨⟨by decide, len.le, ?_⟩, by decide +kernel⟩
  dsimp only
  rw [len, show 17408 - 2 * 8704 = 0 from rfl, none_left, List.append_nil, bytesOf_twoEntries]
  exact loadBlock_same

/-- A check is made with the word that settles it (notes/assumptions/34.md): a CLEAN entry of one RAISE frame fails with its first
word, one of five frames not before its second byte of codes has been read. -/
theorem test_a_load_stops_with_the_word_that_settles_a_check :
    loadStopped [0x0101#16] = true ∧ loadStopped [0x0105#16] = false ∧ loadStopped [0x0105#16, 0x0000#16] = true ∧
    loadStopped [0x0041#16] = true ∧ loadStopped [0x0301#16] = true ∧ loadStopped [] = false := by decide +kernel

/-- A block that succeeds, and one that stops at each check; and the words of a load that has stopped and of one that goes on
past its CLEAN table. -/
theorem meets_LoadsStopAtTheFirstFailingCheck :
    ((List.replicate 1024 twoFrames).flatten.length = 17408 ∧
      loadBlock 9 .b (List.replicate 1024 twoFrames).flatten = .success (List.replicate 1024 [.raise, .lower])) ∧
    (∀ head ∈ [[65#8, 0#8], [1#8, 3#8], [1#8, 1#8]], (head ++ List.replicate 17406 0#8).length = 17408) ∧
    (loadBlock 9 .b ([65#8, 0#8] ++ List.replicate 17406 0#8) = .failure ⟨.badLength, 9, .b, 0, 0, 0, 0⟩ ∧
      loadBlock 9 .b ([1#8, 3#8] ++ List.replicate 17406 0#8) = .failure ⟨.badCode, 9, .b, 0, 0, 0, 0⟩ ∧
      loadBlock 9 .b ([1#8, 1#8] ++ List.replicate 17406 0#8) = .failure ⟨.unbalanced, 9, .b, 0, 0, 0, 0⟩) ∧
    loadBlock 9 .b (List.replicate 17408 0#8) = .failure ⟨.noClean, 9, .b, 0, 0, 0, 0⟩ ∧
    ([0x0041#16].length ≤ 8704 ∧ loadStopped [0x0041#16] = true) ∧
    (bytesOf (List.replicate 128 twoEntries).flatten <+: (List.replicate 1024 twoFrames).flatten ∧
      loadStopped (List.replicate 128 twoEntries).flatten = false ∧
      17 * 256 ≤ 2 * (List.replicate 128 twoEntries).flatten.length) := by
  refine ⟨⟨by rw [length_copies]; decide, loadBlock_same⟩, ?_, by decide +kernel, by decide +kernel, by decide +kernel,
    ⟨?_, by decide +kernel, by rw [length_copies]; decide⟩⟩
  rotate_left
  · rw [bytesOf_twoEntries, ← Nat.add_sub_of_le (show 2 * 128 ≤ 1024 by decide), List.replicate_add, List.flatten_append]
    exact List.prefix_append _ _
  intro head hh
  rw [List.length_append, List.length_replicate]
  revert head
  decide

/-! ## Statements about the posting board -/

/-- The host half of a posting of 8 × 8 pixels: count, mark and mode given. -/
def half (count mark mode : Byte) : List Byte :=
  [count, mark, mode, 0, 0, 0, 4, 0, 4, 0, 8, 0, 8, 0, 0xEF, 0xBE, 0, 0xB0, 3, 0, 4, 0]

/-- Slot 0 holds nothing new; slots 1 to 3 hold new postings, the first with its mark set, the second with mode 4; slots 4 and
7 are WAITING, the second withdrawn; slots 5, 9 and 10 are RUNNING on lanes 0, 3 and 1 and withdrawn. -/
def posted : State :=
  { busy with
    dram := holding [(0x1140, half 1 1 1), (0x1180, half 1 0 4), (0x11C0, half 1 0 1), (0x1200, half 1 0 1),
      (0x1240, half 1 1 1), (0x12C0, half 1 1 1), (0x1340, half 1 1 1), (0x1380, half 1 1 1)]
    board := { busy.board with scan := some (Scan.start 0), slots := busy.board.slots.set 4 ⟨1, .waiting, some (posting 1)⟩ }
    admission := { Admission.reset with list := [Waiting.new 4 (posting 1), Waiting.new 7 (posting 1)] } }

theorem meets_PostingsAreReadAndCheckedInOrder :
    (let c := { cfg with imageBase := 0x01000000, imageSize := 0x00100000 }
     let i := { posting 1 with w := 321, h := 40, pitch := 160 }
     c.imageBase = 0x01000000 ∧ c.imageSize = 0x00100000 ∧ i.mode ≤ 3 ∧ i.ghostPolicy ≤ 1 ∧ i.conflictPolicy ≤ 1 ∧ i.w = 321 ∧
     i.h = 40 ∧ i.pitch = 160 ∧ { i with pitch := 162, image := 0x010FCE00 }.image = 0x010FCE00) ∧
    posted.dram.wf = true := by decide +kernel

theorem meets_ScanActsOnEverySlotByItsTable :
    let at_ := fun (i : Fin 64) => posted.cfg.boardBase + 256 + 64 * i.val
    let count := fun i => posted.dram.read (at_ i)
    let mark := fun i => posted.dram.read (at_ i + 1)
    let posting_ := fun i => Intake.decode (posted.dram.readBytes (at_ i) 32)
    (posted.dram.wf = true ∧ posted.port.partState = .ready ∧ posted.board.scan = some (Scan.start 0)) ∧
    ((posted.slot 0).status = .idle ∧ count 0 = (posted.slot 0).seen) ∧
    ((posted.slot 1).status = .idle ∧ count 1 ≠ (posted.slot 1).seen ∧ mark 1 = count 1) ∧
    ((posted.slot 2).status = .idle ∧ count 2 ≠ (posted.slot 2).seen ∧ mark 2 ≠ count 2 ∧
      malformedBy posted.cfg (posting_ 2) = some .badMode) ∧
    ((posted.slot 3).status = .idle ∧ count 3 ≠ (posted.slot 3).seen ∧ mark 3 ≠ count 3 ∧
      malformedBy posted.cfg (posting_ 3) = none) ∧
    ((posted.slot 4).status = .waiting ∧ mark 4 ≠ (posted.slot 4).seen) ∧
    ((posted.slot 7).status = .waiting ∧ mark 7 = (posted.slot 7).seen ∧ ∃ e ∈ posted.admission.list, e.slot = 7) ∧
    ((posted.slot 5).status = .running ∧ mark 5 = (posted.slot 5).seen ∧ (posted.lane 0).state = .driving ∧
      (posted.lane 0).slot = 5 ∧ ∀ k, (posted.lane k).state ≠ .free → (posted.lane k).slot = 5 → k = 0) ∧
    ((posted.slot 9).status = .running ∧ mark 9 = (posted.slot 9).seen ∧ (posted.lane 3).state = .closing ∧
      (posted.lane 3).slot = 9 ∧ 3 ∉ posted.closing) ∧
    ((posted.slot 10).status = .running ∧ mark 10 = (posted.slot 10).seen ∧ (posted.lane 1).state = .closing ∧
      (posted.lane 1).slot = 10 ∧ 1 ∈ posted.closing) ∧
    (posted.admission.list.map Waiting.slot).Nodup ∧
    (let k : Scan := ⟨0, 0, false, none, false, false, some 7#16⟩
     { posted with board := { posted.board with scan := some k } }.board.scan = some k) ∧
    (let s := after .halt posted
     s.port.partState ≠ .ready ∧ s.board.scan = some ⟨0, 64, false, none, true, false, none⟩) := by decide +kernel

/-- A scan that has visited three slots: between two, copying slot 3's posting, and found at either by HALT, which the take ends
HALTED. -/
theorem meets_ScanActsOnEverySlotByItsTable_inProgress :
    (∀ k ∈ [(⟨0, 3, false, none, false, true, none⟩ : Scan), ⟨0, 3, false, some [0x0001#16], false, true, none⟩,
        ⟨0, 3, false, none, true, true, none⟩, ⟨0, 3, true, some (List.replicate 16 0x0001#16), true, true, none⟩],
      let s := { posted with board := { posted.board with scan := some k } }
      s.dram.wf = true ∧ s.board.scan = some k ∧ k.opened = true ∧
      (∀ words ∈ k.copy, words.length ≤ 16) ∧
      ((3 : Fin 64) - k.first).val = k.visited ∧ ((2 : Fin 64) - k.first).val < k.visited ∧
      k.visited < ((63 : Fin 64) - k.first).val) ∧
    (let s := after .halt { posted with board := { posted.board with scan := some ⟨0, 3, false, some [0x0001#16], false, true, none⟩ } }
     s.port.partState ≠ .ready ∧ s.board.scan = some ⟨0, 3, false, some [0x0001#16], true, true, none⟩ ∧
     ((after .scan s).slot 3).status = .finished) ∧
    (let s := after .halt { posted with board := { posted.board with scan := some ⟨4, 3, false, none, false, true, none⟩ } }
     (s.slot 7).status = .waiting ∧ s.board.scan = some ⟨4, 3, false, none, true, true, none⟩ ∧
     ((after .scan s).slot 7).status = .finished) := by decide +kernel

/-- R66: a first trigger starts a scan at the cursor as it stands, and a second and a third cause one further scan, which starts
when the first ends. -/
theorem test_two_triggers_make_two_scans :
    let one := after .attend ready
    let three := after .attend (after .attend one)
    one.board.scan = some (Scan.start 0) ∧ one.board.scanDue = false ∧ three.board.scan = one.board.scan ∧
    three.board.scanDue = true ∧ (after .scan three).board.scan = some (Scan.start 0) ∧
    (after .scan three).board.scanDue = false ∧ (after .scan (after .scan three)).board.scan = none := by decide +kernel

/-- The premises, and both ways a scan triggers a pass: slot 3 joins the list, slot 7 leaves it. -/
theorem meets_ScanKeepsTheTakeOrder :
    (posted.dram.wf = true ∧ posted.port.partState = .ready ∧ posted.board.scan = some (Scan.start 0)) ∧
    (posted.slot 3).status = .idle ∧ (posted.slot 7).status = .waiting ∧
    posted.dram.read (posted.cfg.boardBase + 256 + 64 * 7 + 1) = (posted.slot 7).seen ∧
    posted.admission.passActive = false ∧ { posted.admission with passActive := true }.passActive = true := by decide +kernel

/-- Chapter 6.8, HALT with a full list, from the end of slot 20's fetch on: the flush finishes slot 21 HALTED, the withdraw that the
scan finds at slot 22 comes before the flush reaches it, and the flush then finds no entry for it. The list has fallen to 1 and
to 0, and the two finishes stand in this order. -/
theorem test_halt_with_a_full_list :
    let request := fun slot : Fin 64 => Waiting.new slot (posting 1)
    let s := { ready with
      dram := [(0x1000 + 256 + 64 * 22, 1#8), (0x1000 + 256 + 64 * 22 + 1, 1#8)]
      board := { Board.reset with
        slots := (Board.reset.slots.set 21 ⟨1, .waiting, some (posting 1)⟩).set 22 ⟨1, .waiting, some (posting 1)⟩
        scan := some ⟨0, 22, false, none, false, true, none⟩ }
      admission := { Admission.reset with list := [request 21, request 22] } }
    let t := after .haltFlush (after .scan (backgroundTick (after .halt s)))
    (backgroundTick (after .halt s)).admission.list = [request 22] ∧ t.admission.list = [] ∧
    t.board.queue.filterMap (fun r => match r with
      | .finish f => some (f.slot, f.outcome)
      | .header _ => none
      | .waiting _ _ => none
      | .running _ _ _ _ => none
      | .completion => none) = [(21, .halted), (22, .withdrawnWhileWaiting)] ∧ t.port.partState = .halted := by
  decide +kernel

/-- A pending request with its deadline, under examination and not; and the flush of one request and of two, with a lane out of
FREE and with none. -/
theorem meets_DeadlinesAndTheFlushFinishPendingRequests :
    (busy.configured = true ∧ Waiting.new 7 (posting 1) ∈ busy.admission.list ∧
      (busy.admission.list.map Waiting.slot).Nodup ∧ (Waiting.new 7 (posting 1)).deadline = some 10 ∧
      busy.admission.exam = none ∧ { busy.admission with exam := some ⟨7, ⟨4, 4, 8, 8⟩, .gates⟩ }.exam = some ⟨7, ⟨4, 4, 8, 8⟩, .gates⟩) ∧
    (let s := after .halt busy
     s.port.partState = .halting ∧ s.admission.flushDue = true ∧ s.admission.passActive = false ∧
     s.admission.exam = none ∧ (s.admission.list.map Waiting.slot).Nodup ∧ s.lanesOut ≠ 0) ∧
    (let s := after .halt ready
     s.port.partState = .halting ∧ s.admission.flushDue = true ∧ s.admission.passActive = false ∧ s.lanesOut = 0) ∧
    (∀ rest ∈ [[], [Waiting.new 8 (posting 1)]],
      let s := after .halt { busy with admission := { busy.admission with list := Waiting.new 7 (posting 1) :: rest } }
      s.port.partState = .halting ∧ s.admission.flushDue = true ∧ s.admission.passActive = false ∧ s.admission.exam = none ∧
      s.admission.list = Waiting.new 7 (posting 1) :: rest ∧ (s.admission.list.map Waiting.slot).Nodup) ∧
    busy.port.partState ≠ .halting ∧ { busy.admission with passActive := true }.passActive = true := by
  decide +kernel

/-- The board writer's queue replaced. -/
def withQueue (q : List BoardRequest) (s : State) : State := { s with board := { s.board with queue := q } }

theorem meets_BoardWritesPutEachFieldInItsPlace :
    busy.board.queue = .header (.lanesInUse 4) :: [.finish (finishOf (some 3) 9)] ∧
    (withQueue [.waiting 7 1] busy).board.queue = .waiting 7 1 :: [] ∧
    (withQueue [.running 5 1 .gray 0] busy).board.queue = .running 5 1 .gray 0 :: [] ∧
    ((-32768 : Int) ≤ 340 ∧ 255 < 256 ∧ 0x1FFFFFE < 4294967296) := ⟨rfl, rfl, rfl, by decide⟩

/-- A finish that no lane carries and whose slot shows FINISHED, one that closes a lane, and one of which the third write is
left. -/
theorem meets_FinishesWriteOutcomeStatusAndCount :
    (let s := setSlot 8 ⟨1, .finished, some (posting 1)⟩ (withQueue [.finish (finishOf none 8)] busy)
     s.board.queue = .finish (finishOf none 8) :: [] ∧ (finishOf none 8).lane = none ∧ (s.slot 8).status = .finished ∧
     (s.slot 8).seen = (finishOf none 8).seen) ∧
    ((withQueue [.finish (finishOf (some 3) 9)] busy).board.queue = .finish (finishOf (some 3) 9) :: [] ∧
      busy.pins.alert = false) ∧
    (withQueue [.completion] busy).board.queue = .completion :: [] ∧
    ((finishOf none 8).driven < 4294967296 ∧ (finishOf none 8).leftUnknown < 4294967296 ∧ (finishOf none 8).score < 65536) := by
  decide +kernel

/-- The finish of lane 3 in READY, with a request waiting, and in HALTING after the flush; and with a load deferred for its bank, which no other lane holds
and which another does. -/
theorem meets_LanesReturnWithTheirFinish :
    let s := withQueue [.finish (finishOf (some 3) 9)] busy
    (s.board.queue = .finish (finishOf (some 3) 9) :: [] ∧ (finishOf (some 3) 9).lane = some 3 ∧ s.configured = true ∧
      s.port.partState = .ready ∧ s.admission.passActive = false ∧ s.admission.list ≠ [] ∧
      { s.admission with passActive := true }.passActive = true) ∧
    (let t := after .haltFlush (after .halt s)
     t.port.partState = .halting ∧ t.admission.flushDue = false ∧ t.board.queue.head? = some (.finish (finishOf (some 3) 9))) ∧
    ∀ refs ∈ [1, 2], let u := { s with banks := { s.banks with
        request := some ⟨.a, 10, .deferred⟩, active := some .b, a := { s.banks.a with refs := refs } } }
      u.board.queue = .finish (finishOf (some 3) 9) :: [] ∧ u.banks.request = some ⟨(u.lane 3).bank, 10, .deferred⟩ ∧
      u.configured = true ∧ (refs = 1 → (u.banks.get (u.lane 3).bank).refs ≤ 1) ∧
        (refs = 2 → 1 < (u.banks.get (u.lane 3).bank).refs) := by
  decide +kernel

/-- Nothing is in progress, but for START, loads, scans, fetches and finishes where they are said to be. -/
structure Quiet (s : State) (start load scan fetch finish : Bool) : Prop where
  start : start = false → ∀ words, s.start ≠ .reading words
  load : load = false → ∀ target band words, s.banks.request ≠ some ⟨target, band, .reading words⟩
  read : s.monitor.held = none
  scan : scan = false → s.board.scan = none
  fetch : fetch = false → s.admission.fetch = none
  pass : s.admission.fetch.isSome = true ∨ s.admission.exam = none ∧ s.admission.passActive = false
  flush : s.port.partState ≠ .halting
  close : s.closing = [] ∧ s.streaming = false
  finish : finish = false → (∀ f rest, s.board.queue ≠ .finish f :: rest) ∧ ∀ rest, s.board.queue ≠ .completion :: rest

/-- The part with nothing in progress; START and a load at their last word but one, and a load that has stopped; a scan at its
last slot, with and without a copy, and one that HALT has found there; one that has not read the override words; a fetch at its
last pixel; a finish at its first word, its last and its status word, and the count. -/
theorem meets_WorkInProgressGoesOnWordByWord :
    Quiet ready false false false false false ∧
    (Quiet { ready with start := .reading (List.replicate 41 0#16) } true false false false false ∧
      (List.replicate 41 0#16).length < 42) ∧
    (∀ words ∈ [[], [0x0041#16]],
      Quiet { ready with banks := { ready.banks with request := some ⟨.a, 0, .reading words⟩ } } false true false false false ∧
      words.length < 8704 ∧ loadStopped words = !words.isEmpty) ∧
    (∀ k ∈ [(⟨0, 63, false, none, false, true, none⟩ : Scan), ⟨0, 63, false, none, true, true, none⟩,
        ⟨0, 63, false, some (List.replicate 15 0#16), false, true, none⟩],
      Quiet { ready with board := { ready.board with scan := some k } } false false true false false ∧ k.opened = true ∧ k.visited < 64 ∧
      ∀ words ∈ k.copy, words.length < 16) ∧
    ((posted.board.scan = some (Scan.start 0) ∧ (Scan.start 0).opened = false ∧ (Scan.start 0).held = none) ∧
      (∀ ending, (⟨0, 0, false, none, ending, false, some 7#16⟩ : Scan).held = some 7#16) ∧
      (ready.slot 63).status = .idle ∧ ready.dram.read (ready.cfg.boardBase + 256 + 64 * 63) = (ready.slot 63).seen ∧
      Memory.read [(0x20C0, 7#8)] (ready.cfg.boardBase + 256 + 64 * 63) ≠ (ready.slot 63).seen) ∧
    (let s := setLane 0 (laneOf .loading 5) { ready with admission := { ready.admission with fetch := some ⟨0, 63, none⟩ } }
     Quiet s false false false true false ∧ 63 < (s.lane 0).rect.w * (s.lane 0).rect.h) ∧
    (∀ q ∈ [.finish (finishOf none 8), .finish (finishOf (some 3) 9), .completion],
      Quiet (withQueue [q] ready) false false false false true) ∧
    (∀ written ∈ [0, 12, 13], written < 13 ∨ written = 13) ∧ (finishOf none 8).lane = none ∧
    (finishOf (some 3) 9).lane.isSome = true ∧
    (let s := setSlot 8 ⟨1, .finished, some (posting 1)⟩ ready
     (s.slot 8).status = .finished ∧ (s.slot 8).seen = (finishOf none 8).seen) := by
  have quiet : ∀ (start load scan fetch finish : Bool) (s : State),
      (start = false → s.start = .idle) → (load = false → s.banks.request = none) →
      (scan = false → s.board.scan = none) → (fetch = false → s.admission.fetch = none) →
      s.admission.exam = none ∧ s.admission.passActive = false →
      s.monitor.held = none ∧ s.port.partState ≠ .halting ∧ s.closing = [] ∧ s.streaming = false →
      (finish = false → s.board.queue = []) → Quiet s start load scan fetch finish :=
    fun _ _ _ _ _ s h₁ h₂ h₃ h₄ h₅ h₆ h₇ =>
      ⟨fun h _ => by simp [h₁ h], fun h _ _ _ => by simp [h₂ h], h₆.1, h₃, h₄, .inr h₅, h₆.2.1, h₆.2.2,
        fun h => by simp [h₇ h]⟩
  refine ⟨quiet _ _ _ _ _ _ ?_ ?_ ?_ ?_ ?_ ?_ ?_, ⟨quiet _ _ _ _ _ _ ?_ ?_ ?_ ?_ ?_ ?_ ?_, ?_⟩, ?_, ?_, ?_,
    ⟨quiet _ _ _ _ _ _ ?_ ?_ ?_ ?_ ?_ ?_ ?_, ?_⟩, ?_, ?_⟩
  case refine_16 =>
    simp only [List.forall_mem_cons, List.not_mem_nil, false_implies, implies_true, and_true]
    exact ⟨⟨quiet _ _ _ _ _ _ (by decide) (by decide) (by decide) (by decide) (by decide) (by decide +kernel) (by decide),
      by decide +kernel⟩, quiet _ _ _ _ _ _ (by decide) (by decide) (by decide) (by decide) (by decide) (by decide +kernel)
      (by decide), by decide +kernel⟩
  case refine_17 =>
    simp only [List.forall_mem_cons, List.not_mem_nil, false_implies, implies_true, and_true]
    exact ⟨⟨quiet _ _ _ _ _ _ (by decide) (by decide) (by decide) (by decide) (by decide) (by decide +kernel) (by decide),
      by decide, by decide⟩, ⟨quiet _ _ _ _ _ _ (by decide) (by decide) (by decide) (by decide) (by decide) (by decide +kernel)
      (by decide), by decide, by decide⟩, quiet _ _ _ _ _ _ (by decide) (by decide) (by decide) (by decide) (by decide)
      (by decide +kernel) (by decide), by decide, by decide⟩
  case refine_27 =>
    simp only [List.forall_mem_cons, List.not_mem_nil, false_implies, implies_true, and_true]
    exact ⟨quiet _ _ _ _ _ _ (by decide) (by decide) (by decide) (by decide) (by decide) (by decide +kernel) (by decide),
      quiet _ _ _ _ _ _ (by decide) (by decide) (by decide) (by decide) (by decide) (by decide +kernel) (by decide),
      quiet _ _ _ _ _ _ (by decide) (by decide) (by decide) (by decide) (by decide) (by decide +kernel) (by decide)⟩
  all_goals decide +kernel

/-! ## Statements about admission -/

/-- A rectangle that ends at the last column of segment 0. -/
def inSegment0 : Rect := ⟨8, 4, 8, 8⟩

theorem meets_GatesAndModeDecideByTheirTables :
    (withRails .fault busy).rails.state = .fault ∧
    (let s := setLink 0 { Link.reset with state := .training } busy
     s.rails.state ≠ .fault ∧ 0 < s.cfg.segments ∧ inSegment0.x < (0 + 1) * (s.cfg.width / s.cfg.segments) ∧
     0 * (s.cfg.width / s.cfg.segments) < inSegment0.x + inSegment0.w ∧ (s.link 0).state = .training) ∧
    (busy.rails.state ≠ .fault ∧ (∀ k, (busy.link k).state = .down) ∧ busy.monitor.status ≠ .invalid ∧
      busy.monitor.status ≠ .none ∧ busy.banks.active ≠ none ∧ busy.rails.state ≠ .falling) ∧
    (ready.monitor.status = .none ∧ { ready.monitor with status := .invalid }.status = .invalid ∧
      ready.banks.active = none ∧ (withRails .falling busy).rails.state = .falling) ∧
    (Flags.none.forcedClean = false ∧ Flags.none.promoted = false ∧ Flags.none.ghostRisk = false) ∧
    (∀ u g : Bool, (LedgerReading.mk u g 0).anyUnknown = u ∧ (LedgerReading.mk u g 0).anyGhost = g) := by decide +kernel

/-- Chapter 5.6: with lanes 0 to 27 taken and 30 and 31 FREE, GRAY stays pending and INK takes lane 30. -/
theorem test_lane_choice_of_5_6 :
    let s := { ready with lanes := Vector.ofFn fun n : Fin 32 =>
      if n.val < 30 then { Lane.reset with state := .driving } else Lane.reset }
    chooseLane .gray s = none ∧ chooseLane .ink s = some 30 := by decide +kernel

theorem meets_ClipOrderLaneAndProbeChecks :
    (let e := { Waiting.new 4 (posting 1) with clip := some inSegment0 }
     let s := { busy with admission := { busy.admission with list := [e, Waiting.new 7 (posting 1)] } }
     s.admission.list = [e] ++ Waiting.new 7 (posting 1) :: [] ∧ (∀ k ∈ [e], k.slot ≠ (Waiting.new 7 (posting 1)).slot) ∧
     (∀ k ∈ [e], ∀ p ∈ k.clip, 1 ≤ p.w ∧ 1 ≤ p.h)) ∧
    busy.dram.wf = true ∧ (1 ≤ (posting 1).w ∧ 1 ≤ (posting 1).h) ∧ clipRect cfg (posting 1) = some ⟨4, 4, 8, 8⟩ ∧
    clipRect cfg { posting 1 with x := 63, w := 65535 } = some ⟨63, 4, 1, 8⟩ ∧ clipRect cfg { posting 1 with x := 64 } = none := by
  decide +kernel

theorem meets_PassesWalkTheListInOrder :
    let s := { ready with admission := { Admission.reset with passActive := true, list := busy.admission.list },
                          board := busy.board }
    (s.port.partState = .ready ∧ s.admission.fetch = none ∧ s.admission.exam = none ∧ s.admission.passActive = true ∧
      s.admission.passDue = false ∧ (∀ e ∈ s.admission.list, e.examined = false) ∧ (s.admission.list.map Waiting.slot).Nodup) ∧
    (withRails .fault s).rails.state = .fault ∧ { s.admission with list := [] }.list = [] ∧
    (s.rails.state ≠ .fault ∧ s.monitor.status = .none ∧ (∀ k, (s.link k).state = .up ∨ (s.link k).state = .down) ∧
      ∀ e ∈ s.admission.list, (s.intake e.slot).x < s.cfg.width ∧ (s.intake e.slot).y < s.cfg.height) := by decide +kernel

/-- A request that nothing holds. -/
def asking (i : Intake) : State :=
  { busy with
    dram := []
    lanes := Vector.replicate 32 Lane.reset
    banks := { busy.banks with a := { busy.banks.a with refs := 0 } }
    rails := { busy.rails with lanesBusy := false }
    board := { Board.reset with slots := Board.reset.slots.set 7 ⟨1, .waiting, some i⟩ }
    admission := { Admission.reset with passActive := true, list := [Waiting.new 7 i] } }

/-- A CLEAN request that nothing holds. -/
def claimable : State := asking (posting 0)

/-- An examination of the one request of `claimable`, at a step, in a part state. -/
def examining (p : PartState) (step : ExamStep) : State :=
  { claimable with
    port := { claimable.port with partState := p }
    admission := { claimable.admission with exam := some ⟨7, ⟨4, 4, 8, 8⟩, step⟩ } }

/-- A pass at the end of its list, with a further one due and without; none in progress, with and without a request; one that has
examined slot 4 and comes to slot 7, inside the panel and outside it; an examination at its last tile and before it; and one that
HALT has found, at each step. -/
theorem meets_ExaminationsGoStepByStep :
    (∀ due ∈ [true, false], let s := { claimable with admission := { claimable.admission with
      passDue := due, list := [{ Waiting.new 7 (posting 0) with examined := true }] } }
     s.port.partState = .ready ∧ s.admission.fetch = none ∧ s.admission.exam = none ∧ s.admission.passActive = true ∧
     ∀ e ∈ s.admission.list, e.examined = true) ∧
    (∀ list ∈ [[], claimable.admission.list],
      let s := { claimable with admission := { claimable.admission with passActive := false, list := list } }
      s.port.partState = .ready ∧ s.admission.passActive = false) ∧
    (claimable.admission.passActive = true ∧ State.reset.port.partState ≠ .ready) ∧
    (∀ x ∈ [4, 64],
      let s := { claimable with
        board := { claimable.board with slots := claimable.board.slots.set 7 ⟨1, .waiting, some { posting 0 with x := x }⟩ }
        admission := { claimable.admission with
          list := [{ Waiting.new 4 (posting 1) with examined := true }, Waiting.new 7 (posting 0)] } }
      s.port.partState = .ready ∧ s.admission.fetch = none ∧ s.admission.exam = none ∧ s.admission.passActive = true ∧
      (s.admission.list.map Waiting.slot).Nodup ∧
      clipRect s.cfg (s.intake 7) = if x = 4 then some ⟨4, 4, 8, 8⟩ else none) ∧
    (∀ left ∈ [[], [(1, 0)]], let s := examining .ready (.ledger [] ((0, 0) :: left) LedgerReading.none)
      s.dram.wf = true ∧ s.admission.fetch = none ∧
      s.admission.exam = some ⟨7, ⟨4, 4, 8, 8⟩, .ledger [] ((0, 0) :: left) LedgerReading.none⟩ ∧
      ((readEntry s.cfg 0 0 s.dram).settle (s.monitor.ticks.toNat % 65536)).residue.natAbs ≤ 32767) ∧
    ∀ step ∈ [ExamStep.gates, .ledger [] [(0, 0)] LedgerReading.none, .mode [] LedgerReading.none, .place .clean, .probe .clean 0],
      (examining .halting step).port.partState = .halting ∧ (examining .halting step).admission.fetch = none ∧
      (examining .halting step).admission.exam = some ⟨7, ⟨4, 4, 8, 8⟩, step⟩ := by decide +kernel

/-- Chapter 6.8, expiry against a claim: an expiry at step 3 ends the examination, finishes the slot TIMED_OUT with the flags that
steps 1 and 2 set, leaves the chosen lane FREE and triggers a further pass; after a claim it finds no entry. -/
theorem test_expiry_against_a_claim_of_6_8 :
    let flags := { Flags.none with clipped := true, coldClamp := true }
    let s := examining .ready (.ledger [] [(0, 0)] LedgerReading.none)
    let s := { s with admission := { s.admission with list := [{ Waiting.new 7 (posting 0) with flags := flags }] } }
    let t := after (.deadlineExpiry 7) s
    (t.admission.exam = none ∧ t.admission.passDue = true ∧ (t.slot 7).status = .finished ∧ t.lanesOut = 0 ∧
      t.board.queue.getLast? = some (.finish { Finish.refusal 7 1 0xBEEF .timedOut flags none 0 with lane := none })) ∧
    (let u := after .admissionPass s
     (u.slot 7).status = .running ∧ after (.deadlineExpiry 7) u = u) := by decide +kernel

/-- R76: with no pass in progress a trigger starts one at the front; a second before it has gone on sets the further-pass flag, so
that two passes follow; and on an empty list a trigger's pass has ended at once. -/
theorem test_two_triggers_make_two_passes :
    let s := { claimable with admission := { claimable.admission with passActive := false } }
    let s := { s with monitor := { s.monitor with status := .none, inUse := none } }
    let one := triggerPass s
    let two := triggerPass one
    (one.admission.passActive, one.admission.passDue) = (true, false) ∧
    (two.admission.passActive, two.admission.passDue) = (true, true) ∧
    (after .admissionPass one).admission.passActive = false ∧
    ((after .admissionPass two).admission.passActive = true ∧ (after .admissionPass two).nextWaiting.isSome = true) ∧
    (after .admissionPass (after .admissionPass two)).admission.passActive = false ∧
    (triggerPass { s with admission := Admission.reset }).admission = Admission.reset := by decide +kernel

/-- The premises that every end of an examination shares. -/
def Examined (s : State) (e : Waiting) (r : Rect) : Prop :=
  s.port.partState = .ready ∧ s.admission.fetch = none ∧ s.admission.exam = none ∧ s.admission.passActive = true ∧ s.admission.passDue = false ∧
    s.admission.list = [e] ∧ e.examined = false ∧ clipRect s.cfg (s.intake e.slot) = some r

/-- A gate that refuses and one that holds; a mode with no table; no lane free; a conflict under WAIT, with the frame timer
running, and under REFUSE; an unknown pixel under a GRAY request. -/
theorem meets_ExaminationsEndAtTheStepThatDecides :
    let e := Waiting.new 7 (posting 1)
    let r : Rect := ⟨4, 4, 8, 8⟩
    let s := { asking (posting 1) with banks := { busy.banks with a := ⟨.ready, some 8, Array.replicate 257 [.raise], 0⟩ } }
    let gate := fun s => stateGates r { Flags.none with clipped := isClipped s.cfg (s.intake e.slot) } s
    let g := ledgerRead cfg 0 r
    (Examined s e r ∧ gate s = .passed Flags.none ∧ s.banks.active = some .a ∧
      (decideMode .gray false (g []).2 Flags.none).1 = .gray ∧ (s.banks.get .a).modeLength .gray ≠ 0 ∧
      busy.banks.a.modeLength .gray = 0) ∧
    gate (withRails .fault s) = .refused (.railsDown .none) ∧
    gate { s with monitor := { s.monitor with status := .none, inUse := none } } = .held Flags.none ∧
    chooseLane .gray { s with lanes := Vector.replicate 32 (laneOf .driving 0) } = none ∧ chooseLane .gray s = some 0 ∧
    (probe r { s with dram := (g [(0x3209, 0x20#8)]).1 } = .conflict ∧ (posting 1).conflictPolicy = 0 ∧
      { posting 1 with conflictPolicy := 1 }.conflictPolicy ≠ 0 ∧ { s.frame with timer := true }.timer = true ∧
      ∀ k, (s.link k).frame = .none) ∧
    probe r { s with dram := (g [(0x3209, 0x40#8)]).1 } = .clear true := by
  refine ⟨⟨⟨rfl, rfl, rfl, rfl, rfl, rfl, rfl, by decide +kernel⟩, ?_⟩, ?_⟩ <;> decide +kernel

/-- The same statement at the claim's own reads: FAULT, a TRAINING segment, FALLING, no active bank, one without the mode, and a
claim by the bank active then. -/
theorem meets_ExaminationsEndAtTheStepThatDecides_at_the_claim :
    let e := Waiting.new 7 (posting 0)
    let s := examining .ready (.probe .clean 0)
    (s.admission.fetch = none ∧ s.admission.exam = some ⟨e.slot, ⟨4, 4, 8, 8⟩, .probe .clean 0⟩ ∧ e ∈ s.admission.list ∧
      (s.admission.list.map Waiting.slot).Nodup ∧ probe ⟨4, 4, 8, 8⟩ s = .clear false) ∧
    (withRails .fault s).rails.state = .fault ∧
    (s.rails.state = .on ∧ 0 < s.cfg.segments ∧ 4 < (0 + 1) * (s.cfg.width / s.cfg.segments) ∧
      ((setLink 0 { Link.reset with state := .training } s).link 0).state = .training ∧ ∀ k, (s.link k).state = .down) ∧
    (withRails .falling s).rails.state = .falling ∧ { s.banks with active := none }.active = none ∧
    (s.banks.active = some .a ∧ (s.banks.get .a).modeLength .clean ≠ 0 ∧ (s.banks.get .a).modeLength .gray = 0 ∧
      s.pins.alert = false) := by decide +kernel

/-- With the rails ON, OFF, and RISING in a step and at the wait for power-good; and a ghost that promotes a GRAY request. -/
theorem meets_AClaimFillsTheLaneRecord :
    let e := Waiting.new 7 (posting 0)
    let s := claimable
    let i := s.intake e.slot
    let r : Rect := ⟨4, 4, 8, 8⟩
    let g := ledgerRead s.cfg s.tick r s.dram
    let d := decideMode (Mode.ofCode i.mode) (i.ghostPolicy == 1) g.2 Flags.none
    (Examined s e r ∧ s.pins.alert = false ∧ s.dram.wf = true ∧ 16 ∣ s.cfg.width ∧ 16 ∣ s.cfg.height ∧
      stateGates r { Flags.none with clipped := isClipped s.cfg i } s = .passed Flags.none ∧ s.banks.active = some .a ∧
      (s.banks.get .a).modeLength d.1 ≠ 0 ∧ chooseLane (Mode.ofCode i.mode) s = some 0 ∧
      probe r { s with dram := g.1 } = .clear false ∧ d.1 = .clean ∧ 1 ≤ i.w ∧ 1 ≤ i.h) ∧
    (s.rails.state = .on ∧ s.cfg.stepDelays.getD 0 0 ≠ 0 ∧ s.rails.demandHeld = false ∧ s.cfg.stepDelays.getD 4 0 ≠ 0 ∧
      s.pins.powerGood = false) ∧
    ((decideMode .gray false (ledgerRead cfg 0 r [(0x5000, 0xFF#8), (0x5001, 0x7F#8)]).2 Flags.none).2.promoted = true ∧
      (tileRect 1 0).overlaps r = false ∧ (31 : Fin 32) ≠ 0 ∧ (tileRect 3 3).overlaps r = false) := by
  refine ⟨⟨⟨rfl, rfl, rfl, rfl, rfl, rfl, rfl, by decide +kernel⟩, ?_⟩, ?_⟩ <;> decide +kernel

/-- Lane 0 LOADING with its fetch at its first pixel. -/
def fetching : State :=
  setLane 0 { busy.lane 0 with state := .loading, length := 0, claimed := 0 }
    { busy with admission := { busy.admission with fetch := some ⟨0, 0, none⟩ } }

theorem meets_TheFetchClaimsThePixelsWithAWaveform :
    let s := fetching
    let l := s.lane 0
    let i := s.intake l.slot
    (s.dram.wf = true ∧ i.y = l.rect.y ∧ l.rect.x + l.rect.w ≤ s.cfg.width ∧ l.rect.y + l.rect.h ≤ s.cfg.height ∧
      s.cfg.planeBase + s.cfg.width * s.cfg.height * 2 ≤ s.cfg.scratchBase ∧ 16 ∣ s.cfg.width ∧ 16 ∣ s.cfg.height ∧
      l.length = 0 ∧ l.claimed = 0 ∧ s.admission.fetch = some ⟨0, 0, none⟩ ∧ l.rect.contains 4 4 = true ∧
      l.rect.contains 11 11 = true ∧ l.rect.contains 12 4 = false ∧ ∀ v ∈ (s.banks.get .a).entries, v.length ≤ 64) ∧
    ∀ x y, l.rect.contains x y = true →
      s.cfg.scratchBase + 128 * ((s.cfg.width / 16) * (s.cfg.height / 16)) ≤
        i.image + (y - l.rect.y) * i.pitch + (x - l.rect.x) / 2 := by
  refine ⟨by decide +kernel, fun x y _ => ?_⟩
  have image : (fetching.intake (fetching.lane 0).slot).image = 0x3B000 := by decide +kernel
  have scratch : fetching.cfg.scratchBase + 128 * ((fetching.cfg.width / 16) * (fetching.cfg.height / 16)) = 0x6800 := by
    decide +kernel
  omega

/-- A fetch of lane 0 that has taken all its pixels, with L = 2 and with L = 0, in READY with an entry examined, and in
HALTING. -/
theorem meets_FetchEndArmsOrClosesTheLane :
    let s := { busy with admission := { busy.admission with
      fetch := some ⟨0, 64, none⟩, passActive := true, list := [{ Waiting.new 7 (posting 1) with examined := true }] } }
    (s.admission.fetch = some ⟨0, 64, none⟩ ∧ s.admission.passActive = true ∧ (s.lane 0).length ≠ 0 ∧
      (s.lane 0).rect.w * (s.lane 0).rect.h ≤ 64 ∧
      s.port.partState = .ready ∧ (∀ e ∈ s.admission.list, e.examined = true)) ∧
    (let t := setLane 0 { s.lane 0 with length := 0 } s
     (t.lane 0).length = 0 ∧ drivenTiles t.cfg 0 (t.lane 0).rect t.dram = [] ∧
     (let u := after .fetchEnd t
      u.closing = 1 :: [0] ∧
      let v := { u with closing := [0] }
      v.closing = 0 :: [] ∧ (v.lane 0).length = 0 ∧ (v.lane 0).ending = .done ∧ (v.lane 0).toClose = [])) ∧
    (after .halt s).port.partState = .halting ∧ (after .halt s).admission.passActive = true := by decide +kernel

/-! ## Statements about lanes, frames and the rails' faults -/

/-- Links with no frame in progress, and with a judged one; and one that takes up a training frame. -/
theorem meets_FrameBoundaryDrivesEveryLane :
    busy.PlaceLaw ∧ (∃ bounds, validateSetup busy.cfg bounds = .none) ∧ (busy.dram.wf = true ∧ busy.frame.timer = true ∧
      (∀ k, (busy.link k).frame = .none ∨ (busy.link k).judged = true)) ∧
    ((busy.lane 0).state = .driving ∧ (busy.lane 0).index + 1 = (busy.lane 0).length ∧ (busy.lane 28).state = .armed) ∧
    (((setLink 0 { Link.reset with frame := .checked, judged := true } busy).link 0).judged = true ∧
      ((after (.frameBoundary ⟨true, .later⟩) (setLink 0 { Link.reset with state := .training } busy)).link 0).frame = .training) :=
  ⟨busy_placeLaw, cfg_validates, by decide +kernel⟩

/-- A boundary, with configuration words that select FRAMES, frozen in FAULT too, no event at all, and FRAMES disabled. -/
theorem meets_BoundariesDoTheTallysWork :
    (busy.frame.timer = true ∧ busy.configured = true ∧ busy.dram.wf = true ∧ ∀ k, (busy.link k).frame = .none) ∧
    busy.PlaceLaw ∧ (∃ bounds, validateSetup busy.cfg bounds = .none) ∧
    ((0x0009#16).toNat / 16 % 16 = 0 ∧ (0x0009#16).getLsbD 0 = true ∧ (0x0009#16).getLsbD 3 = true) ∧
    9 < (0x00A1#16).toNat / 16 % 16 ∧ (0x0000#16).getLsbD 0 = false :=
  ⟨by decide +kernel, busy_placeLaw, cfg_validates, by decide⟩

/-- A boundary counts FRAMES once its configuration word has been read, and publishes it (R169, R170, R172). -/
theorem test_a_boundary_counts_frames :
    let t := after (.frameBoundary ⟨true, .later⟩) { busy with dram := [(0x1004, 1#8)] }
    t.tally.counters[0].value = 1 ∧ t.tally.counters[1].value = 0 ∧
    t.board.queue.getLast? = some (.header (.tally #v[1, 0, 0, 0] 10)) := by decide +kernel

/-- Link 0's checked frame with no echo, within its limit at the last window positions and one past the limit. -/
theorem meets_BoundariesTakeMissingEchoesInEitherOrder :
    (∀ p ∈ [14, 15], let s := setLink 0 { Link.reset with state := .up, frame := .checked, windowPosition := p, windowCount := 1 } busy
      s.frame.timer = true ∧ (∀ k, (s.link k).frame ≠ .training) ∧ (s.link 0).frame = .checked ∧ (s.link 0).judged = false ∧
      16 * ((s.link 0).windowCount + 1) ≤ s.cfg.errorLimit.toNat / 16 * 16 ^ (s.cfg.errorLimit.toNat % 16) ∧
      (p + 1 < s.cfg.window ∨ s.cfg.window ≤ p + 1)) ∧
    let s := setLink 0 { Link.reset with state := .up, frame := .checked, windowCount := 2 } busy
    (s.dram.wf = true ∧ s.frame.timer = true ∧ s.PlaceLaw ∧ (∃ bounds, validateSetup s.cfg bounds = .none) ∧
      s.rails.state = .on) ∧
    ((s.link 0).state = .up ∧ (s.link 0).frame = .checked ∧ (s.link 0).judged = false ∧
      s.cfg.errorLimit.toNat / 16 * 16 ^ (s.cfg.errorLimit.toNat % 16) < 16 * ((s.link 0).windowCount + 1) ∧
      (∀ j, j ≠ 0 → (s.link j).frame = .none ∧ (s.link j).state = .down)) ∧
    (s.lane 0).state = .driving ∧ (s.lane 28).state = .armed ∧ (s.lane 0).rect.x < s.cfg.width / s.cfg.segments :=
  ⟨by decide +kernel, ⟨by decide, by decide, placeLaw_with _ _, cfg_validates, rfl⟩, by decide +kernel⟩

/-- Link 0's checked frame, sent, at the limit of its window's mismatches. -/
def mismatching : State :=
  setLink 0 { Link.reset with state := .up, frame := .checked, windowCount := 2, expected := 0 }
    { busy with frame := { busy.frame with row := 64 } }

/-- Every ending of a lane; each way into CLOSING, by a boundary, a rail fault, an echo, a boundary without an echo, and a fetch's
end with L = 0; and a close in progress at its last tile and after it, on ledger and scratch of zeros. -/
theorem meets_ClosesReachTheLedgerAndHandTheirOutcome :
    (let l := laneOf .closing 5
     l.startFrame = some 7 ∧ { l with ending := .done }.ending = .done ∧ 1 ≤ l.length ∧ { l with length := 0 }.length = 0 ∧
     { l with ending := .brokenByRails }.ending = .brokenByRails ∧
     { l with ending := .brokenBySegment 3 }.ending = .brokenBySegment 3 ∧
     { l with ending := .railsDown .railDrop }.ending = .railsDown .railDrop ∧
     { l with ending := .segmentFault 0 }.ending = .segmentFault 0) ∧
    (busy.dram.wf = true ∧ busy.PlaceLaw ∧ mismatching.PlaceLaw ∧ ∃ bounds, validateSetup busy.cfg bounds = .none) ∧
    ((busy.lane 0).state = .driving ∧
      ((after (.frameBoundary ⟨true, .later⟩) busy).lane 0).state = .closing ∧
      ((after (.frameBoundary ⟨true, .later⟩) busy).lane 0).ending = .done ∧
      ((after (.supplyAlert true) busy).lane 0).ending = .brokenByRails ∧
      ((after (.supplyAlert true) busy).lane 28).ending = .railsDown .supplyAlert ∧
      ((after (.echoWord 0 1 false) mismatching).lane 0).ending = .brokenBySegment 0 ∧
      ((after (.echoWord 0 1 false) mismatching).lane 28).ending = .segmentFault 0 ∧
      ((after (.frameBoundary ⟨true, .later⟩) mismatching).lane 0).ending = .brokenBySegment 0 ∧
      (after .fetchEnd (setLane 0 { fetching.lane 0 with rect := ⟨4, 4, 0, 0⟩ } fetching)).lanes[0].state = .closing) ∧
    (busy.closing = 1 :: [] ∧ 1 ∉ ([] : List (Fin 32)) ∧ (busy.lane 1).toClose = (0, 0, 0) :: [] ∧
      ((busy.lane 1).toClose.map fun p => (p.1, p.2.1)).Nodup ∧ ((closeTick busy).lane 1).toClose = []) ∧
    (∀ tx ty, (readEntry busy.cfg tx ty busy.dram).residue.natAbs ≤ 32767 ∧
      ((readScratch busy.cfg 1 tx ty busy.dram).cleared : Int) ≤ (readEntry busy.cfg tx ty busy.dram).unknown ∧
      (readEntry busy.cfg tx ty busy.dram).unknown + ((256 : Nat) : Int) < 65536) := by
  refine ⟨by decide, ⟨by decide, busy_placeLaw, ?_, cfg_validates⟩, by decide +kernel, by decide +kernel, fun tx ty => ?_⟩
  · exact ⟨busy_placeLaw.reading, busy_placeLaw.unconfigured, busy_placeLaw.width, busy_placeLaw.height, busy_placeLaw.inside,
      busy_placeLaw.tiles, busy_placeLaw.exam⟩
  · simp [busy_entry, busy_scratch]

/-- Two break-marks of one tile in their turn, from the ledger's first: a segment fault's close and then a DONE lane's (R20, R120). -/
theorem test_closes_go_one_after_another :
    let s := { setLane 3 { busy.lane 3 with ending := .brokenBySegment 0, toClose := [(0, 0, 5)] } busy with closing := [3, 1] }
    let t := closeTick s
    readEntry t.cfg 0 0 t.dram = ⟨0, 255, 0, 5⟩ ∧ t.closing = [3, 1] ∧ (closeTick t).closing = [1] ∧
    (closeTick (closeTick t)).closing = [1] ∧ (closeTick (closeTick (closeTick t))).closing = [] := by decide +kernel

/-- Chapter 7.8: a lane of length 5 that started at frame 500 ends at 504, and broken at f = 3 ends at 503 with 60 left. -/
theorem test_outcomes_of_7_8 :
    let l := { laneOf .closing 17 with length := 5, startFrame := some 500, claimed := 160 }
    ({ l with ending := .done, index := 5, completed := 160 }.outcome = ⟨.done, 500, 504, 160, 0⟩) ∧
    ({ l with ending := .brokenByRails, index := 3, completed := 100 }.outcome = ⟨.brokenByRails, 500, 503, 100, 60⟩) := by
  decide

theorem meets_RailFaultsEndEveryLane :
    (let s := withRails .rising { busy with rails := { busy.rails with riseTimer := true } }
     s.PlaceLaw ∧ s.rails.state = .rising ∧ s.rails.riseTimer = true) ∧
    (let s := { busy with rails := { busy.rails with blankingTimer := true } }
     s.PlaceLaw ∧ s.rails.state = .on ∧ s.rails.blankingTimer = true) ∧
    busy.PlaceLaw ∧ (∃ bounds, validateSetup busy.cfg bounds = .none) ∧ busy.rails.state = .on ∧ busy.dram.wf = true :=
  ⟨⟨placeLaw_with _ _, rfl, rfl⟩, ⟨placeLaw_with _ _, rfl, rfl⟩, busy_placeLaw, cfg_validates, by decide +kernel⟩

/-! ## Statements about the tally and the links -/

theorem meets_TallyCountersFollowTheirWords :
    (let c : TallyCounter := ⟨0xFFFFFFFF, ⟨true, false, true, false, 9, 3⟩, false⟩
     c.config.enable = true ∧ c.config.select = 9 ∧ decide (c.config.threshold ≤ 3) = true ∧ c.previous = false ∧
     (0x0091#16).toNat / 16 % 16 = c.config.select ∧ (0x0081#16).toNat / 16 % 16 ≠ c.config.select) ∧
    (let c : TallyCounter := ⟨0, ⟨true, false, false, true, 7, 0⟩, false⟩
     c.config.enable = true ∧ c.config.select = CountEvent.railGlitches.select ∧ c.config.freeze = true) ∧
    TallyCounter.reset.config.enable = false := by decide

/-- Chapter 11.3: the edge counter over boundaries 400 to 404, and over 405. -/
theorem test_edge_counter_of_11_3 :
    let c : TallyCounter := ⟨0, ⟨true, false, true, false, 9, 3⟩, false⟩
    let run := fun (c : TallyCounter) (depths : List Nat) => depths.foldl (fun c depth => TallyCounter.sample 0 depth c) c
    (run c [1, 4, 5, 2, 3]).value = 2 ∧ (run c [1, 4, 5, 2, 3, 3]).value = 2 ∧
    (run { c with config := ⟨true, false, false, false, 9, 3⟩ } [1, 4, 5, 2, 3, 3]).value = 4 := by decide

/-- A checked frame under the limit 32 at counts 1 and 2, its match, and the three ways a word is discarded. -/
theorem meets_EchoesJudgeCheckedFrames :
    (∀ n ∈ [1, 2],
      let s := setLink 0 { Link.reset with state := .up, frame := .checked, windowCount := n } mismatching
      (s.link 0).judged = false ∧ (s.link 0).frame = .checked ∧ (s.link 0).state ≠ .training ∧
      (1#16) ≠ ((streamRest s).link 0).expected ∧ (0#16) = ((streamRest s).link 0).expected) ∧
    (let limit := busy.cfg.errorLimit.toNat / 16 * 16 ^ (busy.cfg.errorLimit.toNat % 16)
     16 * (1 + 1) ≤ limit ∧ limit < 16 * (2 + 1)) ∧
    ((busy.link 0).frame = .none ∧ { busy.link 0 with judged := true }.judged = true) ∧
    (busy.dram.wf = true ∧ busy.PlaceLaw ∧ (∃ bounds, validateSetup busy.cfg bounds = .none) ∧ (busy.lane 0).state = .driving ∧
      (busy.lane 28).state = .armed ∧ (busy.lane 28).rect.x < busy.cfg.width / busy.cfg.segments) :=
  ⟨by decide +kernel, by decide, by decide +kernel, by decide, busy_placeLaw, cfg_validates, by decide +kernel⟩

/-- The last position but one of a window and the last; a run that reaches K at the attempt's last frame, a run one short of
it there with one attempt and with none left, and one before the last frame. -/
theorem meets_WindowsAndTrainingFollowTheirCounts :
    (∀ p ∈ [14, 15], let l := { Link.reset with frame := .checked, judged := true, windowPosition := p }
      l.frame = .checked ∧ l.judged = true ∧ (p + 1 < busy.cfg.window ∨ busy.cfg.window ≤ p + 1)) ∧
    (let l := { Link.reset with state := .training, frame := .training }
     l.judged = false ∧ l.frame = .training ∧ busy.pins.alert = false ∧ busy.cfg.matchCount ≤ 2 + 1 ∧
     1 + 1 < busy.cfg.matchCount ∧ 4 * busy.cfg.matchCount ≤ 11 + 1 ∧ 10 + 1 < 4 * busy.cfg.matchCount ∧
     busy.cfg.attempts ≤ 1 + 1 ∧ 0 + 1 < busy.cfg.attempts ∧ 1 ≤ busy.cfg.matchCount) ∧
    ({ Link.reset with frame := .checked }.judged = false ∧
      16 * (1 + 1) ≤ busy.cfg.errorLimit.toNat / 16 * 16 ^ (busy.cfg.errorLimit.toNat % 16)) ∧
    (busy.rails.state = .on ∧ ((setLink 0 { Link.reset with state := .training } busy).link 0).state = .training) := by
  decide +kernel

/-- The stream at its first pixel, at the last but one of a row, and at the last row. -/
theorem meets_StreamsCarryTheCodesAndTheirCheckValue :
    (busy.dram.wf = true ∧ 16 ∣ segmentWidth busy.cfg ∧ busy.cfg.width = busy.cfg.segments * segmentWidth busy.cfg ∧
      (0#8) ≠ 1#8 ∧ 63 < busy.cfg.height ∧ 15 < segmentWidth busy.cfg ∧ 3 < busy.cfg.segments) ∧
    (∀ n ∈ [0, 62], let s := { setLink 0 { Link.reset with state := .up, frame := .checked } busy with
        frame := { busy.frame with codes := List.replicate n .zero } }
      s.frame.codes.length < s.cfg.width ∧ s.streaming = true ∧ s.frame.codes.length + 1 < s.cfg.width) ∧
    ∀ row ∈ [0, 63, 64], let s := { setLink 0 { Link.reset with state := .up, frame := .checked } busy with
        frame := { busy.frame with row := row } }
      (s.link 0).frame = .checked ∧ s.frame.codes = [] ∧ s.frame.row ≤ s.cfg.height := by decide +kernel

/-! ## Statements about the rails -/

theorem meets_RailsRiseStepByStep :
    (let s := withRails .rising { ready with rails := { Rails.reset with stepTimer := true, step := 3 } }
     s.pins.alert = false ∧ s.rails.state = .rising ∧ s.rails.stepTimer = true ∧ s.rails.step < 4 ∧
     s.cfg.stepDelays.getD (s.rails.step + 1) 0 ≠ 0) ∧
    (let s := withRails .rising { ready with rails := { Rails.reset with stepTimer := true, step := 4 } }
     s.rails.step = 4 ∧ s.rails.stepTimer = true ∧ s.pins.powerGood = false ∧ { s.pins with powerGood := true }.powerGood = true ∧
     s.cfg.idleHold ≠ 0) ∧
    (let s := withRails .rising { ready with rails := { Rails.reset with step := 5, riseTimer := true } }
     s.rails.stepTimer = false ∧ s.rails.step = 5 ∧ s.rails.riseTimer = true) ∧
    (busy.pins.alert = false ∧ busy.rails.state = .on ∧ { busy.rails with blankingTimer := true }.blankingTimer = true) ∧
    (ready.rails.state = .off ∧ ready.rails.demandHeld = false ∧ (withRails .fault ready).rails.state = .fault) := by decide

theorem meets_RailsComeToOffStepByStepOrByCommand :
    (let s := { busy with rails := { busy.rails with idleTimer := .running } }
     s.rails.state = .on ∧ s.rails.idleTimer = .running ∧ s.cfg.stepDelays.getD 4 0 ≠ 0) ∧
    (let s := withRails .falling { ready with rails := { Rails.reset with stepTimer := true, step := 2 } }
     s.rails.state = .falling ∧ s.rails.stepTimer = true ∧ 2 ≤ s.rails.step ∧ s.cfg.stepDelays.getD (s.rails.step - 2) 0 ≠ 0) ∧
    (let s := withRails .falling { ready with rails := { Rails.reset with stepTimer := true, step := 1 } }
     s.rails.step ≤ 1 ∧ s.configured = true ∧ (∀ k, (s.link k).state ≠ .training) ∧ s.rails.demandHeld = false ∧
     { s.rails with demandHeld := true }.demandHeld = true ∧ s.pins.alert = false ∧ s.cfg.stepDelays.getD 0 0 ≠ 0) ∧
    let s := withRails .fault ready
    let held := { s with rails := { s.rails with demandHeld := true } }
    (s.pins.reset = false ∧ s.configured = true ∧ s.rails.state = .fault) ∧
    (s.rails.demandHeld = false ∧ ∀ k, (s.link k).state ≠ .training) ∧
    (held.rails.demandHeld = true ∧ held.pins.alert = false ∧ held.cfg.stepDelays.getD 0 0 ≠ 0) ∧
    { held.pins with alert := true }.alert = true := by decide

theorem meets_WakeEventsScanAndRaiseTheRails :
    let measuring := fun (st : RailState) => { ready with rails := { Rails.reset with state := st, wake := .measuring } }
    (ready.configured = true ∧ ready.rails.wake = .idle ∧ State.reset.configured = false ∧ ready.rails.wake ≠ .measuring) ∧
    (∀ st ∈ [RailState.off, .rising, .on, .falling, .fault],
      (measuring st).rails.wake = .measuring ∧ (measuring st).port.partState = .ready ∧ (measuring st).rails.state = st ∧
      (measuring st).pins.alert = false ∧ (measuring st).cfg.idleHold ≠ 0 ∧ (measuring st).cfg.stepDelays.getD 0 0 ≠ 0) ∧
    (let s := { measuring .off with setup := some { cfg with stepDelays := [0, 0, 0, 0, 0] }, pins := ⟨false, true, false, true⟩ }
     (∀ i < 5, s.cfg.stepDelays.getD i 0 = 0) ∧ s.pins.powerGood = true ∧ s.cfg.idleHold ≠ 0) := by decide

/-! ## Statements about the ledger and the formats -/

/-- Chapter 1.3: the settle of 3 ticks, the GRAY close, the CLEAN close, the stamp at the wrap, both orders of two closes, and
the break-mark. -/
theorem test_ledger_of_1_3 :
    (let e := (LedgerEntry.mk (-5000) 7 1200 0).settle 1203
     e = ⟨-625, 7, 1203, 0⟩ ∧ ghostScore cfg e = 67 ∧ meetsGhost cfg 67 = true ∧
     meetsGhost { cfg with ghostThreshold := 0x43 } 67 = false ∧
     e.apply 1203 false ⟨312, 0, true⟩ = ⟨-313, 8, 1203, 0⟩ ∧
     (e.apply 1203 false ⟨312, 0, true⟩).apply 1203 true ⟨0, 0, true⟩ = ⟨-156, 0, 1203, 0⟩) ∧
    (LedgerEntry.mk 800 0 65530 0).settle 4 = ⟨0, 0, 4, 0⟩ ∧
    (let e : LedgerEntry := ⟨32000, 254, 9, 0⟩
     (e.apply 9 false ⟨1500, 0, true⟩).apply 9 false ⟨-2000, 0, true⟩ = ⟨30767, 255, 9, 0⟩ ∧
     (e.apply 9 false ⟨-2000, 0, true⟩).apply 9 false ⟨1500, 0, true⟩ = ⟨31500, 255, 9, 0⟩) ∧
    (LedgerEntry.mk (-40) 12 9 3).breakMark 9 15 ⟨0, 3, true⟩ = ⟨-40, 255, 9, 15⟩ := by decide +kernel

/-- The largest entry, with the tick one behind and at the stamp. -/
theorem meets_SettlesHalveTheResiduePerTick :
    let e : LedgerEntry := ⟨-32767, 255, 65535, 256⟩
    (65535 < 65536 ∧ e.stamp < 65536 ∧ e.residue.natAbs ≤ 32767) ∧ (65535 + 65536 - e.stamp) % 65536 = 0 ∧
    15 ≤ (14 + 65536 - e.stamp) % 65536 ∧ 3 < busy.cfg.width / 16 := by decide

theorem meets_GhostScoreAndConditionAreExact :
    (let e : LedgerEntry := ⟨-32767, 255, 0, 0⟩
     e.residue.natAbs ≤ 32767 ∧ e.partials ≤ 255 ∧ 15 ≤ 15 ∧ { cfg with partialWeight := 0 }.partialWeight = 0) ∧
    ((0x14#8).toNat % 16 = 4 ∧ (0x14#8).toNat / 16 = 1 ∧ (0x0F#8).toNat / 16 = 0 ∧ (0x24#8).toNat / 16 = 2 ∧
      (0x15#8).toNat % 16 = 5 ∧ 5872 ≤ 5872 ∧ { cfg with ghostThreshold := 0x24 }.ghostThreshold = 0x24#8) := by decide

theorem meets_LedgerOperationsKeepTheirRanges :
    ((LedgerEntry.mk 32767 255 0 256).residue.natAbs ≤ 32767 ∧ (LedgerEntry.mk 32767 255 0 256).partials ≤ 255 ∧ 0 < 1 ∧
      (ScratchRecord.mk 0 256 true).cleared ≤ 256 ∧ 256 + 256 - (256 : Int) ≤ 256) ∧
    (let r : Rect := ⟨63, 63, 1, 1⟩
     Memory.wf [] = true ∧ 65535 < 65536 ∧ 16 ∣ cfg.width ∧ 16 ∣ cfg.height ∧ 1 ≤ r.w ∧ 1 ≤ r.h ∧ r.x + r.w ≤ cfg.width ∧
     r.y + r.h ≤ cfg.height) := by decide

theorem meets_FormatsReadBackAsWritten :
    (let e : LedgerEntry := ⟨-32767, 255, 65535, 256⟩
     e.residue.natAbs ≤ 32767 ∧ e.partials ≤ 255 ∧ e.stamp < 65536 ∧ 0 ≤ e.unknown ∧ e.unknown ≤ 256) ∧
    (let r : ScratchRecord := ⟨-16384, 256, true⟩
     r.net.natAbs ≤ 16384 ∧ r.cleared ≤ 256) ∧ busy.dram.wf = true := by decide

/-! ## The whole part again -/

/-- The rest of the states that move: the setup copy, the active bank, the scan cursor, a lane out of FREE and back. -/
theorem meets_StateMovesOnlyByItsEvents_more :
    (after .setupValidation (starting record)).setup ≠ none ∧ (after .setupValidation (starting record)).banks.bounds ≠ [] ∧
    (after .resynchronisation { busy with start := .boardDue }).banks.active ≠ busy.banks.active ∧
    (after .scan posted).board.cursor ≠ posted.board.cursor ∧
    (let s := { posted with board := { posted.board with scan := some ⟨0, 3, false, none, false, true, none⟩ } }
     (after .halt s).board.cursor ≠ s.board.cursor) ∧
    ((claimable.lane 0).state = .free ∧ (after .admissionPass claimable).lanes[0].state ≠ .free ∧
      (after (.frameBoundary ⟨true, .first⟩) claimable).lanes[0].state ≠ .free) ∧
    ((examining .ready (.probe .clean 0)).lanes[0].state = .free ∧
      (backgroundTick (examining .ready (.probe .clean 0))).lanes[0].state ≠ .free) ∧
    ((busy.lane 3).state ≠ .free ∧ ((after .finish (withQueue [.finish (finishOf (some 3) 9)] busy)).lane 3).state = .free) := by
  decide +kernel

/-! ## What is read of the table's words -/

/-- No row of the table has bits, so no word spells a command and the state stays. -/
theorem test_no_word_spells_a_command :
    decodeTableWord 16 0x1234 = none ∧ State.reset.withFetchWord 16 0x1234 = State.reset := ⟨rfl, rfl⟩

end Sys2Proof.Tests
end

section
/-! PROOFS. The settle of a ledger entry (R14) and the ghost score and condition (R16, R17): first how bytes and entries
read back after a write, then the rules of the settle and of the threshold, then the statements. -/

namespace Sys2Proof.Machine

/-! ## Bytes and entries read back after a write -/

/-- One walk over the cells of `bs`, followed by cells past them, gives `bs` back, the unlisted blanks among them. The later
cells may stand in any order. -/
theorem Memory.expand_cells_append (bs : List Byte) (a : Nat) (later : Memory)
    (hlater : ∀ c ∈ later, a + bs.length ≤ c.1) : Memory.expand bs.length a (Memory.cells a bs ++ later) = bs := by
  induction bs generalizing a with
  | nil => rfl
  | cons b rest ih =>
    have hrest := ih (a + 1) fun c hc => by have := hlater c hc; rw [List.length_cons] at this; omega
    by_cases hb : b = Memory.blank
    · have hpast : ∀ c ∈ Memory.cells (a + 1) rest ++ later, c.1 ≠ a := by
        intro c hc
        rcases List.mem_append.1 hc with h | h
        · have := Memory.mem_cells h; omega
        · have := hlater c h; rw [List.length_cons] at this; omega
      rw [Memory.cells, if_pos hb, List.length_cons]
      cases hcells : Memory.cells (a + 1) rest ++ later with
      | nil => rw [Memory.expand, ← hcells, hrest, hb]
      | cons c cs =>
        rw [Memory.expand, if_neg (hpast c (by simp [hcells])), ← hcells, hrest, hb]
    · simp [Memory.cells, Memory.expand, hb, hrest]

/-- Bytes stored read back whole, in any memory: the cells before and past them do not matter. -/
theorem Memory.readBytes_write (m : Memory) (a : Nat) (bs : List Byte) : (m.write a bs).readBytes a bs.length = bs := by
  have hlow : (m.filter fun c => decide (c.1 < a)).filter (fun c => decide (a ≤ c.1)) = [] := by
    simp only [List.filter_eq_nil_iff, List.mem_filter, decide_eq_true_eq]; omega
  have hcells : (Memory.cells a bs).filter (fun c => decide (a ≤ c.1)) = Memory.cells a bs :=
    List.filter_eq_self.2 fun c hc => by simpa using (Memory.mem_cells hc).1
  rw [Memory.readBytes, Memory.write, List.filter_append, List.filter_append, hlow, hcells, List.nil_append]
  refine Memory.expand_cells_append bs a _ fun c hc => ?_
  simpa using (List.mem_filter.1 (List.mem_filter.1 hc).1).2

@[simp] theorem LedgerEntry.length_encode (e : LedgerEntry) : e.encode.length = 8 := rfl

/-- A written entry reads back as its 8 bytes decode. -/
theorem readEntry_writeEntry (c : Setup) (tx ty : Nat) (e : LedgerEntry) (m : Memory) :
    readEntry c tx ty (writeEntry c tx ty e m) = LedgerEntry.decode e.encode := by
  rw [readEntry, writeEntry, ← e.length_encode, Memory.readBytes_write]

/-- The stamp is kept in 16 bits. -/
theorem LedgerEntry.stamp_decode_encode (e : LedgerEntry) : (LedgerEntry.decode e.encode).stamp = e.stamp % 65536 := by
  have hword : wordAt e.encode 4 = BitVec.ofNat 16 e.stamp := word_of_bytes _
  rw [LedgerEntry.decode, hword, BitVec.toNat_ofNat]

/-! ## The settle (R14) -/

/-- Division toward zero is the sign times the floor of the magnitude's division. -/
theorem tdiv_eq_sign_mul_natAbs_div (r : Int) (d : Nat) : r.tdiv d = r.sign * ((r.natAbs / d : Nat) : Int) := by
  obtain ⟨n, rfl | rfl⟩ := r.eq_nat_or_neg
  all_goals
    rcases n.eq_zero_or_pos with rfl | hn
    · simp
    · simp [Int.neg_tdiv, Int.sign_natCast_of_ne_zero hn.ne']

/-- The elapsed count of R14: the ticks from the stamp to `now`, modulo the stamp's range. -/
def LedgerEntry.elapsed (now : Nat) (e : LedgerEntry) : Nat := (now + 65536 - e.stamp) % 65536

theorem LedgerEntry.elapsed_lt (now : Nat) (e : LedgerEntry) : e.elapsed now < 65536 := Nat.mod_lt _ (by decide)

@[simp] theorem LedgerEntry.settle_stamp (now : Nat) (e : LedgerEntry) : (e.settle now).stamp = now := rfl

@[simp] theorem LedgerEntry.settle_partials (now : Nat) (e : LedgerEntry) : (e.settle now).partials = e.partials := rfl

@[simp] theorem LedgerEntry.settle_unknown (now : Nat) (e : LedgerEntry) : (e.settle now).unknown = e.unknown := rfl

theorem LedgerEntry.settle_residue (now : Nat) (e : LedgerEntry) : (e.settle now).residue =
    e.residue.sign * ((e.residue.natAbs / 2 ^ min (e.elapsed now) 15 : Nat) : Int) := by
  rw [← tdiv_eq_sign_mul_natAbs_div, Nat.cast_pow]; rfl

/-- With no tick elapsed the residue stays as it is. -/
theorem LedgerEntry.settle_residue_of_elapsed_eq_zero {now : Nat} {e : LedgerEntry} (h : e.elapsed now = 0) :
    (e.settle now).residue = e.residue := by
  rw [settle_residue, h, Nat.zero_min, pow_zero, Nat.div_one, Int.sign_mul_natAbs]

/-- |R| is less than 2^15, so that 15 halvings leave nothing. -/
theorem LedgerEntry.settle_residue_of_fifteen_le {now : Nat} {e : LedgerEntry} (hr : e.residue.natAbs ≤ 32767)
    (h : 15 ≤ e.elapsed now) : (e.settle now).residue = 0 := by
  rw [settle_residue, Nat.min_eq_right h, Nat.div_eq_of_lt (by omega), Nat.cast_zero, Int.mul_zero]

/-- With no tick elapsed the settle leaves a stamp in its range, and so the entry, as it is: a whole wrap of the stamp leaves
the entry undecayed. -/
theorem LedgerEntry.settle_of_elapsed_eq_zero {now : Nat} {e : LedgerEntry} (hnow : now < 65536) (hstamp : e.stamp < 65536)
    (h : e.elapsed now = 0) : e.settle now = e := by
  have hsame : now = e.stamp := by rw [elapsed] at h; omega
  calc e.settle now = { e with residue := (e.settle now).residue, stamp := now } := rfl
    _ = e := by rw [settle_residue_of_elapsed_eq_zero h, hsame]

/-- A second settle at the same tick changes nothing. -/
theorem LedgerEntry.settle_settle (now : Nat) (e : LedgerEntry) : (e.settle now).settle now = e.settle now := by
  have helapsed : (e.settle now).elapsed now = 0 := by simp [elapsed]
  calc (e.settle now).settle now = { e.settle now with residue := ((e.settle now).settle now).residue } := rfl
    _ = e.settle now := by rw [settle_residue_of_elapsed_eq_zero helapsed]

/-- Settle-and-apply begins with a settle. -/
theorem LedgerEntry.apply_settle (now : Nat) (whole : Bool) (r : ScratchRecord) (e : LedgerEntry) :
    (e.settle now).apply now whole r = e.apply now whole r := by
  rw [apply, settle_settle, apply]

/-- Break-mark begins with a settle. -/
theorem LedgerEntry.breakMark_settle (now q : Nat) (r : ScratchRecord) (e : LedgerEntry) :
    (e.settle now).breakMark now q r = e.breakMark now q r := by
  rw [breakMark, settle_settle, breakMark]

/-- Settle-and-read writes its tick as the entry's stamp. -/
theorem stamp_readEntry_settleAndRead (c : Setup) (now tx ty : Nat) (acc : Memory × LedgerReading) :
    (readEntry c tx ty (settleAndRead c now (tx, ty) acc).1).stamp = now % 65536 := by
  rw [settleAndRead, readEntry_writeEntry, LedgerEntry.stamp_decode_encode, LedgerEntry.settle_stamp]

theorem State.tick_mod (s : State) : s.tick % 65536 = s.monitor.ticks.toNat % 65536 := Nat.mod_mod _ _

/-! ## The ghost score and condition (R16, R17) -/

theorem residueTerm_le {e : LedgerEntry} (h : e.residue.natAbs ≤ 32767) : e.residue.natAbs / 16 ≤ 2047 := by omega

theorem partialTerm_le {c : Setup} {e : LedgerEntry} (hp : e.partials ≤ 255) (hw : c.partialWeight ≤ 15) :
    e.partials * c.partialWeight ≤ 3825 :=
  Nat.mul_le_mul hp hw

theorem ghostScore_le {c : Setup} {e : LedgerEntry} (hr : e.residue.natAbs ≤ 32767) (hp : e.partials ≤ 255)
    (hw : c.partialWeight ≤ 15) : ghostScore c e ≤ 5872 :=
  Nat.add_le_add (residueTerm_le hr) (partialTerm_le hp hw)

theorem ghostScore_of_partialWeight_eq_zero {c : Setup} (e : LedgerEntry) (h : c.partialWeight = 0) :
    ghostScore c e = e.residue.natAbs / 16 := by
  rw [ghostScore, h, Nat.mul_zero, Nat.add_zero]

theorem meetsGhost_iff (c : Setup) (score : Nat) : meetsGhost c score = true ↔ floatValue c.ghostThreshold ≤ 16 * score :=
  decide_eq_true_iff

/-- The smallest score that meets a threshold byte is the ceiling of its value, m × 16^e / 16. -/
theorem meetsGhost_iff_ceil_le (c : Setup) (score : Nat) :
    meetsGhost c score = true ↔ (floatValue c.ghostThreshold + 15) / 16 ≤ score := by
  rw [meetsGhost_iff]; omega

/-- A mantissa of 2 and more with exponent 4, and any mantissa but 0 with a greater exponent, denotes a value above every
score. -/
theorem lt_floatValue {b : Byte} (h : b.toNat % 16 = 4 ∧ 2 ≤ b.toNat / 16 ∨ 5 ≤ b.toNat % 16 ∧ 1 ≤ b.toNat / 16) :
    16 * 5872 < floatValue b := by
  rcases h with ⟨he, hm⟩ | ⟨he, hm⟩
  · calc 16 * 5872 < 2 * 16 ^ 4 := by decide
      _ ≤ floatValue b := Nat.mul_le_mul hm (Nat.pow_le_pow_right (by decide) he.ge)
  · calc 16 * 5872 < 1 * 16 ^ 5 := by decide
      _ ≤ floatValue b := Nat.mul_le_mul hm (Nat.pow_le_pow_right (by decide) he)

theorem meetsGhost_eq_false {c : Setup} {score : Nat} (hs : score ≤ 5872)
    (hv : 16 * 5872 < floatValue c.ghostThreshold) : meetsGhost c score = false := by
  rw [Bool.eq_false_iff, Ne, meetsGhost_iff]; omega

/-! ## The statements -/

/-- Settles O57: division toward zero as sign and magnitude gives the decay, and a settle repeated at its own tick changes
nothing, so that apply and break-mark begin with one; the stamp of the last clause is read back from the bytes written. -/
theorem settlesHalveTheResiduePerTick : Obligations.SettlesHalveTheResiduePerTick := by
  refine ⟨fun e now hnow hstamp hresidue => ?_, fun s tx ty acc _ => ?_⟩
  · exact ⟨e.settle_residue now, e.settle_stamp now, e.settle_partials now, e.settle_unknown now,
      LedgerEntry.settle_of_elapsed_eq_zero hnow hstamp, LedgerEntry.settle_residue_of_fifteen_le hresidue,
      Nat.le_of_lt_succ (e.elapsed_lt now), fun whole r => (e.apply_settle now whole r).symm,
      fun q r => (e.breakMark_settle now q r).symm⟩
  · rw [stamp_readEntry_settleAndRead, s.tick_mod]

/-- Settles O58: the bounds of the score's two terms, and the condition as a comparison with the threshold's value, whose
ceiling is the table's smallest score. -/
theorem ghostScoreAndConditionAreExact : Obligations.GhostScoreAndConditionAreExact := by
  refine ⟨fun c e hr hp hw => ?ranges, fun c score => ?consequences, fun row hrow c score hc => ?table,
    fun row hrow c score hc hs => ?unmet⟩
  case ranges =>
    exact ⟨rfl, residueTerm_le hr, partialTerm_le hp hw, ghostScore_le hr hp hw, ghostScore_of_partialWeight_eq_zero e⟩
  case consequences =>
    refine ⟨meetsGhost_iff c score, fun hm => ?_, fun he hm => ?_, fun hs h => meetsGhost_eq_false hs (lt_floatValue h)⟩
    · rw [meetsGhost_iff, floatValue, hm, Nat.zero_mul]; exact Nat.zero_le _
    · rw [meetsGhost_iff, floatValue, hm, he]; omega
  case table =>
    have hceil : (floatValue row.1 + 15) / 16 = row.2 := by clear hc; revert row; decide
    rw [meetsGhost_iff_ceil_le, hc, hceil]
  case unmet =>
    have habove : 16 * 5872 < floatValue row := by clear hc; revert row; decide
    exact meetsGhost_eq_false hs (hc ▸ habove)

end Sys2Proof.Machine
end

section
/-! PROOFS. The completion of a sensor read (R48): what an update of the monitor and the start of a read keep of the last good
reading, the last result and the stale timer, then the conversion's arithmetic, then the statement. -/

namespace Sys2Proof.Machine

/-! ## What an update of the monitor leaves as given -/

@[simp] theorem updateMonitor_reading (m : Monitor) (s : State) : (updateMonitor m s).monitor.reading = m.reading := by
  obtain ⟨b, h⟩ := updateMonitor_monitor m s; rw [h]

@[simp] theorem updateMonitor_lastGood (m : Monitor) (s : State) : (updateMonitor m s).monitor.lastGood = m.lastGood := by
  obtain ⟨b, h⟩ := updateMonitor_monitor m s; rw [h]

@[simp] theorem updateMonitor_lastResult (m : Monitor) (s : State) :
    (updateMonitor m s).monitor.lastResult = m.lastResult := by
  obtain ⟨b, h⟩ := updateMonitor_monitor m s; rw [h]

@[simp] theorem updateMonitor_stale (m : Monitor) (s : State) : (updateMonitor m s).monitor.stale = m.stale := by
  obtain ⟨b, h⟩ := updateMonitor_monitor m s; rw [h]

/-- What is left of a read's start reads the override words and addresses the sensor: the last good reading stays. -/
@[simp] theorem readTick_lastGood (s : State) : (readTick s).monitor.lastGood = s.monitor.lastGood := by
  rcases readTick_cases s with ⟨value, -, h⟩ | ⟨-, h⟩
  · simp [h, overrideRead]
  · rw [h]

@[simp] theorem readTick_stale (s : State) : (readTick s).monitor.stale = s.monitor.stale := by
  rcases readTick_cases s with ⟨value, -, h⟩ | ⟨-, h⟩
  · simp [h, overrideRead]
  · rw [h]

/-! ## What a read's end leaves of the part -/

/-- The part without the monitor and the blocks to which it hands its work: the notice cause, the board writer, the bank unit
and the admission unit. -/
def State.outsideMonitor (s : State) : State :=
  { s with monitor := Monitor.reset, notice := Notice.reset, board := Board.reset, banks := BankUnit.reset,
           admission := Admission.reset }

theorem eq_with_monitor_of_outsideMonitor_eq {s t : State} (h : t.outsideMonitor = s.outsideMonitor) :
    t = { s with monitor := t.monitor, notice := t.notice, board := t.board, banks := t.banks,
                 admission := t.admission } := by
  cases t
  simpa [State.outsideMonitor] using h

@[simp] theorem readTick_outsideMonitor (s : State) : (readTick s).outsideMonitor = s.outsideMonitor := by
  simp [State.outsideMonitor]

@[simp] theorem readFailed_outsideMonitor (bus : List I2cEvent) (s : State) :
    (readFailed bus s).outsideMonitor = s.outsideMonitor := by
  simp [State.outsideMonitor]

@[simp] theorem readData_outsideMonitor (raw : Word) (s : State) :
    (readData raw s).outsideMonitor = s.outsideMonitor := by
  simp [State.outsideMonitor]

/-! ## How a read ends (R48) -/

/-- A reading in the range of R48. -/
def InSensorRange (raw : Word) : Prop := -160 ≤ toQuarterDegrees raw ∧ toQuarterDegrees raw ≤ 340

theorem readData_of_inSensorRange {raw : Word} (h : InSensorRange raw) (s : State) :
    readData raw s = updateMonitor
      { s.monitor with reading := false, bus := transactionSteps s.cfg ++ [.stop],
                       lastGood := some (toQuarterDegrees raw), lastResult := some .good, stale := .running } s :=
  if_pos h

theorem readData_of_not_inSensorRange {raw : Word} (h : ¬ InSensorRange raw) (s : State) :
    readData raw s = readFailed (transactionSteps s.cfg ++ [.stop]) s :=
  if_neg h

@[simp] theorem readFailed_reading (bus : List I2cEvent) (s : State) : (readFailed bus s).monitor.reading = false := by
  simp [readFailed]

@[simp] theorem readFailed_lastResult (bus : List I2cEvent) (s : State) :
    (readFailed bus s).monitor.lastResult = some .failed := by
  simp [readFailed]

@[simp] theorem readFailed_lastGood (bus : List I2cEvent) (s : State) :
    (readFailed bus s).monitor.lastGood = s.monitor.lastGood := by
  simp [readFailed]

@[simp] theorem readFailed_stale (bus : List I2cEvent) (s : State) :
    (readFailed bus s).monitor.stale = s.monitor.stale := by
  simp [readFailed]

/-- The read is over, GOOD or FAILED. -/
@[simp] theorem readData_reading (raw : Word) (s : State) : (readData raw s).monitor.reading = false := by
  by_cases h : InSensorRange raw
  · rw [readData_of_inSensorRange h, updateMonitor_reading]
  · rw [readData_of_not_inSensorRange h, readFailed_reading]

theorem exec_sensorReadComplete_data {s : State} (raw : Word) (h : s.monitor.reading = true) :
    exec (.sensorReadComplete (.data raw)) s = .next (readData raw (readTick s)) :=
  if_pos h

theorem exec_sensorReadComplete_noAck {s : State} (which : UnackedByte) (h : s.monitor.reading = true) :
    exec (.sensorReadComplete (.noAck which)) s = .next (readFailed (unackedEvents s.cfg which) (readTick s)) :=
  if_pos h

/-! ## The conversion (R48) -/

/-- The quotient of a 16-bit reading by 64 is a signed 10-bit value. -/
theorem toQuarterDegrees_bounds (raw : Word) : -512 ≤ toQuarterDegrees raw ∧ toQuarterDegrees raw ≤ 511 := by
  have hlow := raw.le_toInt
  have hhigh := raw.toInt_lt
  rw [toQuarterDegrees]; omega

/-- The conversion is an arithmetic shift of six bits. -/
theorem toInt_sshiftRight_six (raw : Word) : (raw.sshiftRight 6).toInt = toQuarterDegrees raw := by
  rw [BitVec.toInt_sshiftRight, Int.shiftRight_eq_div_pow]; rfl

/-! ## The statement -/

/-- Settles O24: a read ends as an update of the monitor after what is left of its start, and neither moves the last good
reading or the stale timer unless the reading is in range. -/
theorem sensorReadsCompleteByTheirRange : Obligations.SensorReadsCompleteByTheirRange := by
  refine ⟨fun raw s hreading => ?data, fun which s hreading => ?noAck, fun raw => ?bounds, by decide⟩
  case data =>
    refine ⟨_, exec_sensorReadComplete_data raw hreading, eq_with_monitor_of_outsideMonitor_eq (by simp),
      readData_reading raw _, toQuarterDegrees_bounds raw, toInt_sshiftRight_six raw, fun hgood => ?good,
      fun hout => ?failed⟩
    case good =>
      rw [readData_of_inSensorRange hgood]
      simp [toQuarterDegrees]
    case failed =>
      have hfailed : ¬ InSensorRange raw := fun ⟨hlow, hhigh⟩ => hout.elim hlow.not_gt hhigh.not_gt
      rw [readData_of_not_inSensorRange hfailed]
      simp
  case noAck =>
    exact ⟨_, exec_sensorReadComplete_noAck which hreading, eq_with_monitor_of_outsideMonitor_eq (by simp), by simp⟩
  case bounds => omega

end Sys2Proof.Machine
end
